-- ==== Sys2Proof/Word.lean ====
section
/-! DEFINITION. The word types of SFSEQ: every value is unsigned (00_scope §5.1). -/

namespace Sys2Proof

/-- A byte: bit 7 the most significant (00_scope §5.1). -/
abbrev Byte := BitVec 8

/-- A page index, PAGE_INDEX_WIDTH = 16 bits (R5, R17). -/
abbrev PageIndex := BitVec 16

/-- A device byte address on the wire, ADDR_BYTES = 3 (R5, R40). -/
abbrev Addr24 := BitVec 24

end Sys2Proof
end

