-- ==== Sys2Proof/Config.lean ====
section
/-! DEFINITION. The parameters of SFSEQ (R5, R15) and the free values: what the spec leaves open. -/

namespace Sys2Proof

/-- POLL_FRAMING (R5, D7): how the status samples of a poll are framed. -/
inductive PollFraming where
  /-- Each status sample is a frame of its own: the decided default, with the rows of R125. -/
  | perSample
  /-- The alternative of D7: one frame, the opcode once, status bytes clocked until clear. Its rows are the model's (log 15). -/
  | continuous
  deriving DecidableEq, Repr

/-- The parameters of R5 that are open or decided. The fixed ones (PAGE_SIZE, ADDR_BYTES, CPOL, CPHA, BIT_ORDER,
CS_POLARITY) stand in the operations. No rule changes a parameter (R15). -/
structure Config where
  /-- LAST_PAGE = N_PAGES - 1 (R5, R56). N_PAGES is OPEN (C1); pages are named by 16 bits (log 22). -/
  lastPage : PageIndex
  /-- SCK_HZ, OPEN; no rule reads it (R106). -/
  sckHz : Nat
  /-- DUMMY_BYTE (R78, D5). -/
  dummyByte : Byte
  /-- BUSY_MASK (R26, D6). -/
  busyMask : Byte
  /-- POLL_LIMIT (R158, D19): `none` is unbounded. -/
  pollLimit : Option Nat
  /-- IDENTIFY_POLLS (R120, D9). -/
  identifyPolls : Bool
  /-- POLL_FRAMING (R125, D7, log 15). -/
  pollFraming : PollFraming
  /-- ERASED_BYTE (R64, C2): read by the responder only. -/
  erasedByte : Byte
  /-- JEDEC_MFR, OPEN: read by the responder only (R61). -/
  jedecMfr : Byte
  /-- JEDEC_TYPE, OPEN: read by the responder only (R61). -/
  jedecType : Byte
  /-- JEDEC_CAP, OPEN: read by the responder only (R61). -/
  jedecCap : Byte
  deriving DecidableEq, Repr

/-- N_PAGES = LAST_PAGE + 1 (R5). -/
def Config.nPages (c : Config) : Nat := c.lastPage.toNat + 1

/-- The size in bytes of the device array: N_PAGES pages of 256 bytes (R56, R58). -/
def Config.capacity (c : Config) : Nat := c.nPages * 256

/-- The last valid page of the attached chip: OPEN (R5, C1, log 3). -/
opaque Config.openLastPage : PageIndex
/-- The bus clock rate: OPEN (R5, log 3). -/
opaque Config.openSckHz : Nat
/-- The three identification bytes: OPEN (R5, N9, log 3). -/
opaque Config.openJedecMfr : Byte
/-- See `Config.openJedecMfr`. -/
opaque Config.openJedecType : Byte
/-- See `Config.openJedecMfr`. -/
opaque Config.openJedecCap : Byte

/-- The configuration with every decided parameter at its default (R5) and every open one an opaque constant. -/
def Config.default : Config where
  lastPage := Config.openLastPage
  sckHz := Config.openSckHz
  dummyByte := 0x00
  busyMask := 0x01
  pollLimit := none
  identifyPolls := false
  pollFraming := .perSample
  erasedByte := 0xFF
  jedecMfr := Config.openJedecMfr
  jedecType := Config.openJedecType
  jedecCap := Config.openJedecCap

/-- FREE VALUE: a byte the spec leaves at any value, the n-th drawn (R59, R105, R107; log 5). -/
opaque Config.freeByte : Nat → Byte

/-- FREE VALUE: a 16-bit register read that the spec leaves unspecified (R25; log 12). -/
opaque Config.freeHalf : Nat → BitVec 16

/-- FREE VALUE: a busy duration in status samples, `none` for the stuck device (R65; log 6). -/
opaque Config.freeBusy : Nat → Option Nat

end Sys2Proof
end

