-- ==== Sys2Proof/Syntax.lean ====
section
/-! DEFINITION. The instruction set of SFSEQ on its two levels (R2): seven wire frames (R75) and five host commands (R85),
one constructor per row of spec/opcode_table.json (R92). -/

namespace Sys2Proof

/-- An instruction: a wire frame or a host command. A frame's page is the 16-bit operand of its header (R77); a command has
no operand in its code, its operands are registers (R86). -/
inductive Instr where
  /-- JEDEC_ID, opcode 0x9F (R110). -/
  | jedecId
  /-- WREN, opcode 0x06 (R111). -/
  | wren
  /-- WRDI, opcode 0x04 (R112). -/
  | wrdi
  /-- CHIP_ERASE, opcode 0xC7 (R113). -/
  | chipErase
  /-- RDSR1, opcode 0x05 (R114). -/
  | rdsr1
  /-- READ, opcode 0x03, of the page `p` (R115). -/
  | read (p : PageIndex)
  /-- PP, opcode 0x02, of the page `p` (R116); its data bytes are TXBUF. -/
  | pp (p : PageIndex)
  /-- IDENTIFY, command code 0x9F (R120). -/
  | identify
  /-- ERASE_CHIP, command code 0xC7 (R121). -/
  | eraseChip
  /-- READ_PAGE, command code 0x03 (R122). -/
  | readPage
  /-- WRITE_PAGE, command code 0x02 (R123). -/
  | writePage
  /-- POLL_UNTIL_READY, command code 0x05 (R124). -/
  | pollUntilReady
  deriving DecidableEq, Repr

end Sys2Proof
end

