-- ==== Sys2Proof/Machine/State.lean ====
section
/-! DEFINITION. The state of SFSEQ as plain data (10_state, R58), the outcomes of a step that are no next state, and the state
after reset (R30, R69). -/

namespace Sys2Proof.Machine

/-- Why the machine stops with a fault: never. The controller raises no exception and has no fault state (R150, R151, R155), and
every access of the responder is defined, free or handed to a device that answers freely (R59, R66, R68). Safe: nothing is
hidden by a fault. -/
inductive Fault where
  deriving DecidableEq, Repr

/-- Why an instruction has no meaning. -/
inductive Refusal where
  /-- Raised by `exec` alone, for an instruction of the table with no meaning yet; no arm raises it now. Safe: the machine
  stops. -/
  | notModelled (mnemonic : String)
  deriving DecidableEq, Repr

/-- The five host commands as SEQ_STEP names them (R20, R85). -/
inductive Command where
  | identify
  | eraseChip
  | readPage
  | writePage
  | pollUntilReady
  deriving DecidableEq, Repr

/-- The rows of the step tables, by their labels: I (R120), E (R121), RD (R122), W (R123) and P (R125). The counted rows RD5 and
W8 take their index i from BYTE_CNT (R24: i = BYTE_CNT − 4). -/
inductive Row where
  | i0 | i1 | i2 | i3 | i4 | i5
  | e0 | e1 | e2 | e3 | e4 | e5
  | rd0 | rd1 | rd2 | rd3 | rd4 | rd5 | rd6
  | w0 | w1 | w2 | w3 | w4 | w5 | w6 | w7 | w8 | w9
  | p0 | p1 | p2 | p3 | p4
  deriving DecidableEq, Repr

/-- SEQ_STEP: IDLE, or one row of a command's step table, the row about to be executed (R20). -/
inductive SeqStep where
  | idle
  | at (cmd : Command) (row : Row)
  deriving DecidableEq, Repr

/-- A bus event: `Sel`, `X(out, in)` or `Desel` (00_scope §5.2, R103), and the model's own mark `cut` where a reset ended a frame
without a `Desel` (R173, log 21). -/
inductive BusEvent where
  | sel
  | x (out inp : Byte)
  | desel
  | cut
  deriving DecidableEq, Repr

/-- The memory of the device: (address, byte) pairs in the canonical form of `Memory.wf`. -/
abbrev Memory := List Host.Cell

/-- What an address that no pair lists reads as: an erased byte (DESIGN CHOICE, unsafe, log 2; the spec gives the array no
contents at power-on, R69, N12). -/
def Memory.unlisted : Byte := 0xFF

/-- `remaining` of R58: how many further status samples read busy. -/
inductive Remaining where
  | samples (n : Nat)
  | forever
  deriving DecidableEq, Repr

/-- The effect of the operation in flight inside the device (R62, R64). -/
inductive Pending where
  | program (addr : Nat) (data : List Byte)
  | erase
  deriving DecidableEq, Repr

/-- The reference responder (R58). -/
structure Responder where
  /-- The device array; addresses below N_PAGES*256 exist (R56, R58). -/
  mem : Memory
  /-- The device's busy bit (R26, R58). -/
  busy : Bool
  /-- The write-enable latch (R27, R63). -/
  wel : Bool
  /-- Meaningful while `busy` (R58, R65). -/
  remaining : Remaining
  /-- The pending effect of the operation in flight (R61, R62, R64). -/
  pending : Option Pending
  /-- While a frame is open, the bytes received so far in it, first byte first (R58). -/
  frame : Option (List Byte)
  /-- The model's own: the busy durations this run supplies for the next operations; beyond them a draw is free (R65, log 6). -/
  draws : List Remaining
  deriving DecidableEq, Repr

/-- What answers on MISO: the reference responder, or a bus whose answers are supplied byte by byte (the "scriptable fake bus" of
R103) and free once the supply is empty. `script []` is a device of which nothing is known (R14, R107). -/
inductive Device where
  | responder (r : Responder)
  | script (answers : List Byte)
  deriving DecidableEq, Repr

/-- A register of the host's register space (R29). -/
inductive HostReg where
  | cmd
  | ctrlStatus
  | pageIndex
  | id (i : Fin 3)
  | txbuf (i : Fin 256)
  | rxbuf (i : Fin 256)
  deriving DecidableEq, Repr

/-- A move of the host (95_test_vectors part 3; log 7, 8, 9). -/
inductive HostMove where
  /-- A register write by number, `W num <- v` (R25, R29). -/
  | write (num : Nat) (v : BitVec 16)
  /-- A register read by number, `R num` (R25, R29). -/
  | read (num : Nat)
  /-- The host makes no access while the controller takes one step. -/
  | run
  /-- `wait`: CTRL_STATUS is read until its bit 0 reads 0. -/
  | wait
  /-- The reset input is asserted (R170, R173). -/
  | reset
  /-- The source's blocking call of an operation: the code is written to CMD, then CTRL_BUSY = 0 is waited for (R90, D1). -/
  | call (code : Byte)
  /-- One wire frame driven on its own, given by its header (V6.4; the controller itself never does it, R112). -/
  | frame (header : List Byte)
  deriving DecidableEq, Repr

/-- Everything the spec gives the machine (INVENTORY.md, State), and the model's own fields last. -/
structure State where
  /-- The parameters of R5: data, so that one step serves every configuration; no operation changes them (R15, log 3). -/
  cfg : Config
  /-- CS_N: 1 is deasserted (R10, R11). -/
  csN : Bool
  /-- SCK (R10, R12). -/
  sck : Bool
  /-- MOSI (R10, R13). -/
  mosi : Bool
  /-- PAGE_INDEX (R17). -/
  pageIndex : PageIndex
  /-- TXBUF[0..255] (R18). -/
  txbuf : Vector Byte 256
  /-- RXBUF[0..255] (R19). -/
  rxbuf : Vector Byte 256
  /-- ID[0..2]: manufacturer_id, memory_type, capacity_code (R21). -/
  id : Vector Byte 3
  /-- CTRL_BUSY (R22). -/
  ctrlBusy : Bool
  /-- ERR_TIMEOUT (R28); it exists only under a POLL_LIMIT. -/
  errTimeout : Bool
  /-- POLL_CNT (R28, R158); it exists only under a POLL_LIMIT. -/
  pollCnt : Nat
  /-- SEQ_STEP (R20). -/
  seq : SeqStep
  /-- PAGE_LATCH (R23). -/
  pageLatch : PageIndex
  /-- BYTE_CNT: the index of the byte within the current frame, 0 to 259 (R24, log 13). -/
  byteCnt : Nat
  /-- BIT_CNT (R24). -/
  bitCnt : BitVec 3
  /-- SHO, the outgoing shift register (R24). -/
  sho : Byte
  /-- SHI, the incoming shift register (R24). -/
  shi : Byte
  /-- SAMPLE, the status byte of the current poll iteration (R24). -/
  sample : Byte
  /-- The device on the bus (R58, R103). -/
  dev : Device
  /-- The model's own: the host's coming moves; when there is none the controller runs on (log 7). -/
  agenda : List HostMove
  /-- The model's own: the value the last host read returned (log 21). -/
  rdata : BitVec 16
  /-- The model's own: the bus trace, newest event first (00_scope §5.2, log 21). -/
  trace : List BusEvent
  /-- The model's own: how many free values have been drawn; it picks the next one (log 5). -/
  freeCtr : Nat
  deriving DecidableEq, Repr

/-- The responder's start state: ready, write-disabled, no frame open (R69, log 4), its array all erased (log 2). -/
def Responder.start : Responder where
  mem := []
  busy := false
  wel := false
  remaining := .samples 0
  pending := none
  frame := none
  draws := []

/-- The machine right after reset: the values of R30 where R30 gives one, zero where R30 says unspecified (log 1), the device at
the responder's start state (R69), and no host move pending. -/
def State.reset : State where
  cfg := Config.default
  csN := true
  sck := false
  mosi := false
  pageIndex := 0
  txbuf := Vector.replicate 256 0
  rxbuf := Vector.replicate 256 0
  id := Vector.replicate 3 0
  ctrlBusy := false
  errTimeout := false
  pollCnt := 0
  seq := .idle
  pageLatch := 0
  byteCnt := 0
  bitCnt := 0
  sho := 0
  shi := 0
  sample := 0
  dev := .responder Responder.start
  agenda := []
  rdata := 0
  trace := []
  freeCtr := 0

end Sys2Proof.Machine
end

