-- ==== Sys2Proof/Machine/Flags.lean ====
section
/-! DEFINITION. The two flags the rules read (R26) and the status register the host reads (R22, R28, R29). -/

namespace Sys2Proof.Machine

/-- The device's busy bit as the controller extracts it from a status byte: (SAMPLE & BUSY_MASK) != 0 (R26, R125 row P4). -/
def busyBit (mask sample : Byte) : Bool := (sample &&& mask) != 0#8

/-- Whether the sample of the current poll iteration reads busy (R125 row P4). -/
def State.sampleBusy (s : State) : Bool := busyBit s.cfg.busyMask s.sample

/-- The status byte a responder answers: its busy bit is `busy`, its other bits are those of a free byte (R61 (2)). -/
def statusByte (mask free : Byte) (busy : Bool) : Byte :=
  if busy then (free &&& ~~~mask) ||| mask else free &&& ~~~mask

/-- ERR_TIMEOUT as it is read: it exists only under a POLL_LIMIT and reads 0 without one (R28). -/
def State.timeoutFlag (s : State) : Bool := s.errTimeout && s.cfg.pollLimit.isSome

/-- CTRL_STATUS: bit 0 CTRL_BUSY, bit 1 ERR_TIMEOUT, bits 7:2 zero (R22, R28, R29). -/
def State.ctrlStatus (s : State) : Byte :=
  0#6 ++ BitVec.ofBool s.timeoutFlag ++ BitVec.ofBool s.ctrlBusy

end Sys2Proof.Machine
end

