-- ==== Sys2Proof/Machine/Memory.lean ====
section
/-! DEFINITION. The operations over the device array (R40, R56, R60, R62, R64) and its canonical form. -/

namespace Sys2Proof.Machine

/-- The byte at an address: MemRead of one byte (00_scope §5.2, R60). -/
def Memory.read : Memory → Nat → Byte
  | [], _ => Memory.unlisted
  | (k, v) :: rest, a => if a = k then v else Memory.read rest a

/-- The array with the byte `b` at the address `a`, in canonical form. -/
def Memory.write : Memory → Nat → Byte → Memory
  | [], a, b => if b = Memory.unlisted then [] else [(a, b)]
  | (k, v) :: rest, a, b =>
    if a < k then (if b = Memory.unlisted then (k, v) :: rest else (a, b) :: (k, v) :: rest)
    else if a = k then (if b = Memory.unlisted then rest else (k, b) :: rest)
    else (k, v) :: Memory.write rest a b

/-- MemWrite as the responder programs: `mem[addr + k] <- mem[addr + k] & d[k]` for each data byte (R62). -/
def Memory.program : Memory → Nat → List Byte → Memory
  | m, _, [] => m
  | m, a, d :: ds => Memory.program (Memory.write m a (Memory.read m a &&& d)) (a + 1) ds

/-- The array with the bytes of the list at `a`, `a + 1`, ... (the unspecified page of a cut program frame, R173). -/
def Memory.store : Memory → Nat → List Byte → Memory
  | m, _, [] => m
  | m, a, b :: bs => Memory.store (Memory.write m a b) (a + 1) bs

/-- An array of `n` bytes that all hold `b` (R64). -/
def Memory.filled (n : Nat) (b : Byte) : Memory :=
  if b = Memory.unlisted then [] else (List.range n).map fun a => (a, b)

/-- The canonical form: addresses strictly rising, no pair that repeats what an unlisted address reads as. -/
def Memory.wf : Memory → Bool
  | [] => true
  | (k, v) :: rest => decide (v ≠ Memory.unlisted) && rest.all (fun c => decide (k < c.1)) && Memory.wf rest

/-- Every listed address exists in an array of `n` bytes (R56, R58). -/
def Memory.within (n : Nat) (m : Memory) : Bool := m.all fun c => decide (c.1 < n)

end Sys2Proof.Machine
end

