-- ==== Sys2Proof/Decode.lean ====
section
/-! DEFINITION. Decoding and encoding of both levels (30_encoding): a host command from the 8-bit value written to CMD (R85),
a wire frame from its header or its whole run of MOSI bytes (R70 to R77). Both are total and reject by name; the encoder
follows them. -/

namespace Sys2Proof

/-- Why bytes decode to nothing. -/
inductive DecodeReject where
  /-- A reserved command code (R87): a CMD write of it is ignored. -/
  | reservedCommand (code : Byte)
  /-- No byte at all: every frame has at least its opcode byte (R70, R101). -/
  | emptyFrame
  /-- A first byte that is none of the seven opcodes of R75 (R67, R88). -/
  | unknownOpcode (op : Byte)
  /-- A run of bytes that is neither the header nor the whole frame its opcode gives (R76). -/
  | wrongLength (op : Byte)
  /-- A read or program header whose third address byte is not 0x00 (R77). -/
  | misalignedAddress (op : Byte)
  deriving DecidableEq, Repr

/-! ### Opcode bytes and command codes (R75, R85) -/

abbrev opJedecId : Byte := 0x9F
abbrev opWren : Byte := 0x06
abbrev opWrdi : Byte := 0x04
abbrev opChipErase : Byte := 0xC7
abbrev opRdsr1 : Byte := 0x05
abbrev opRead : Byte := 0x03
abbrev opPp : Byte := 0x02

/-- A2 = hi(p) = (p >> 8) & 0xFF (R77, R129). -/
def hiByte (p : PageIndex) : Byte := ((p >>> 8) &&& 0x00FF#16).setWidth 8

/-- A1 = lo(p) = p & 0xFF (R77, R129). -/
def loByte (p : PageIndex) : Byte := (p &&& 0x00FF#16).setWidth 8

/-- The page named by the address bytes A2 and A1 (R77). -/
def pageOf (a2 a1 : Byte) : PageIndex := a2 ++ a1

/-- The host command a CMD value selects (R85); all eight bits significant; every other value is reserved (R87). -/
def decodeCommand (code : Byte) : Except DecodeReject Instr :=
  if code = opJedecId then .ok .identify
  else if code = opChipErase then .ok .eraseChip
  else if code = opRead then .ok .readPage
  else if code = opPp then .ok .writePage
  else if code = opRdsr1 then .ok .pollUntilReady
  else .error (.reservedCommand code)

/-- The frame with the opcode `op` and `rest` after it, for a format whose header is the opcode byte alone and whose whole
frame has `n` further bytes, which the master fills (F-OP with n = 0, F-RD(n); R70 to R72). -/
def decodePlain (i : Instr) (op : Byte) (n : Nat) (rest : List Byte) : Except DecodeReject Instr :=
  if rest.length = 0 ∨ rest.length = n then .ok i else .error (.wrongLength op)

/-- The read or program frame with the bytes `rest` after its opcode (F-ARD, F-AWR; R73, R77). -/
def decodeAddressed (mk : PageIndex → Instr) (op : Byte) : List Byte → Except DecodeReject Instr
  | a2 :: a1 :: a0 :: data =>
    if a0 ≠ 0x00 then .error (.misalignedAddress op)
    else if data.length = 0 ∨ data.length = 256 then .ok (mk (pageOf a2 a1))
    else .error (.wrongLength op)
  | _ => .error (.wrongLength op)

/-- The wire frame that a header, or a whole frame's MOSI bytes, stand for (R70 to R77). -/
def decodeFrame : List Byte → Except DecodeReject Instr
  | [] => .error .emptyFrame
  | op :: rest =>
    if op = opJedecId then decodePlain .jedecId op 3 rest
    else if op = opWren then decodePlain .wren op 0 rest
    else if op = opWrdi then decodePlain .wrdi op 0 rest
    else if op = opChipErase then decodePlain .chipErase op 0 rest
    else if op = opRdsr1 then decodePlain .rdsr1 op 1 rest
    else if op = opRead then decodeAddressed .read op rest
    else if op = opPp then decodeAddressed .pp op rest
    else .error (.unknownOpcode op)

/-! ### The encoder -/

/-- Whether the instruction is a host command (R2 (a)); the others are wire frames (R2 (b)). -/
def Instr.isCommand : Instr → Bool
  | .identify | .eraseChip | .readPage | .writePage | .pollUntilReady => true
  | .jedecId | .wren | .wrdi | .chipErase | .rdsr1 | .read _ | .pp _ => false

/-- The first byte of the instruction: the frame's opcode byte (R75) or the command's code (R85). -/
def Instr.opcode : Instr → Byte
  | .jedecId | .identify => opJedecId
  | .wren => opWren
  | .wrdi => opWrdi
  | .chipErase | .eraseChip => opChipErase
  | .rdsr1 | .pollUntilReady => opRdsr1
  | .read _ | .readPage => opRead
  | .pp _ | .writePage => opPp

/-- The address bytes of a read or program frame (R77); none for the others. -/
def Instr.addressBytes : Instr → List Byte
  | .read p | .pp p => [hiByte p, loByte p, 0x00]
  | _ => []

/-- The words of an instruction: a command's code, or a frame's header (R92: 8 bits for F-OP and F-RD, 32 for F-ARD and
F-AWR). -/
def encode (i : Instr) : List Byte := i.opcode :: i.addressBytes

/-- Decoding on the instruction's own level. -/
def decodeAs (isCommand : Bool) : List Byte → Except DecodeReject Instr
  | bytes =>
    if isCommand then
      match bytes with
      | [code] => decodeCommand code
      | [] => .error .emptyFrame
      | code :: _ => .error (.wrongLength code)
    else decodeFrame bytes

/-- The length in bytes of the whole frame an opcode opens (R76), 0 for a byte that opens none. -/
def frameLength (op : Byte) : Nat :=
  if op = opWren ∨ op = opWrdi ∨ op = opChipErase then 1
  else if op = opRdsr1 then 2
  else if op = opJedecId then 4
  else if op = opRead ∨ op = opPp then 260
  else 0

/-! ### The table's numbering of bits -/

/-- The `n` bytes of the number `w`, least significant first. -/
def bytesOfNat : Nat → Nat → List Byte
  | 0, _ => []
  | n + 1, w => BitVec.ofNat 8 w :: bytesOfNat n (w / 256)

/-- The bytes an instruction of `nbits` bits numbered as in spec/opcode_table.json stands for. A one-byte row is that byte. A
read or program row is one number whose MOST significant byte goes first on the wire (R92: "match and mask are over the
frame's header, most-significant byte first"). -/
def tableBytes (nbits w : Nat) : List Byte := (bytesOfNat (nbits / 8) w).reverse

/-- The result of a decoder, its reason dropped. -/
def acceptedInstr : Except DecodeReject Instr → Option Instr
  | .ok i => some i
  | .error _ => none

/-- The instruction the decoder reads from a row of the table. One byte is first read as a command code, then as a frame's
header: 0x9F, 0xC7 and 0x05 are both, and the command is the one the host can write (log 10). A longer word is a frame's
header, most significant byte first (R92). -/
def decodeTableWord (nbits w : Nat) : Option Instr :=
  match tableBytes nbits w with
  | [] => none
  | [b] => (acceptedInstr (decodeCommand b)).or (acceptedInstr (decodeFrame [b]))
  | bytes => acceptedInstr (decodeFrame bytes)

end Sys2Proof
end

