-- ==== Sys2Proof/Machine/Operands.lean ====
section
/-! DEFINITION. The operand forms: single bits of a byte (R102), the address of a page (R77, R130), the index of a data byte (R24),
the register a number names (R29). -/

namespace Sys2Proof.Machine

/-- The byte `v` with its bit `j` set to `b`. -/
def setBit (v : Byte) (j : Nat) (b : Bool) : Byte :=
  if b then v ||| (1#8 <<< j) else v &&& ~~~(1#8 <<< j)

/-- The 24-bit number the address bytes A2, A1, A0 form (R60, R77). -/
def addressOf (a2 a1 a0 : Byte) : Addr24 := (a2 ++ a1) ++ a0

/-- The first device address of a page: the effective address zext_24(p) * 256 of a read or a program (R77, R130). -/
def pageAddress (p : PageIndex) : Nat := p.toNat * 256

/-- The page byte that byte `n` of a read or program frame carries: i = BYTE_CNT − 4 (R24). -/
def dataIndex (n : Nat) : Fin 256 := Fin.ofNat 256 (n - 4)

/-- The bytes of TXBUF in index order, the data bytes of a program frame (R18, R45). -/
def txBytes (s : State) : List Byte := s.txbuf.toList

/-- The register a number names; every other number is unassigned (R29). -/
def regOf (num : Nat) : Option HostReg :=
  if num = 0x000 then some .cmd
  else if num = 0x001 then some .ctrlStatus
  else if num = 0x002 then some .pageIndex
  else if 0x004 ≤ num ∧ num ≤ 0x006 then some (.id (Fin.ofNat 3 (num - 0x004)))
  else if 0x100 ≤ num ∧ num ≤ 0x1FF then some (.txbuf (Fin.ofNat 256 (num - 0x100)))
  else if 0x200 ≤ num ∧ num ≤ 0x2FF then some (.rxbuf (Fin.ofNat 256 (num - 0x200)))
  else none

/-- The host command an instruction is, as SEQ_STEP names it; none for a wire frame (R2). -/
def commandOf : Instr → Option Command
  | .identify => some .identify
  | .eraseChip => some .eraseChip
  | .readPage => some .readPage
  | .writePage => some .writePage
  | .pollUntilReady => some .pollUntilReady
  | .jedecId | .wren | .wrdi | .chipErase | .rdsr1 | .read _ | .pp _ => none

end Sys2Proof.Machine
end

