-- ==== Sys2Proof/Machine/Device.lean ====
section
/-! DEFINITION. The device side of a frame: the reference responder (R58 to R69) and the scripted bus (R103). The controller's rules
hold whatever it answers; where the spec gives an answer no value it is the free byte handed in. -/

namespace Sys2Proof.Machine

/-- A device of which nothing is known: every answer is free. The responder becomes it where R67 and R68 have it refuse
(log 16). -/
def Device.unknown : Device := .script []

/-- The free busy duration as a `remaining` (R65). -/
def Remaining.ofFree : Option Nat → Remaining
  | some n => .samples n
  | none => .forever

/-- `remaining - 1`, with forever staying forever (R61 (3)). -/
def Remaining.less : Remaining → Remaining
  | .samples n => .samples (n - 1)
  | .forever => .forever

/-- The array with a pending effect applied (R62, R64). -/
def Pending.apply (c : Config) (m : Memory) : Pending → Memory
  | .program addr data => Memory.program m addr data
  | .erase => Memory.filled c.capacity c.erasedByte

/-- The operation in flight completes: its effect is applied, `busy <- 0`, `wel <- 0` (R61 (1)). -/
def Responder.complete (c : Config) (r : Responder) : Responder :=
  { r with
    mem := match r.pending with
      | some p => p.apply c r.mem
      | none => r.mem
    busy := false
    wel := false
    pending := none }

/-- Step (1) of a status answer: an operation with no busy sample left completes (R61). -/
def Responder.settle (c : Config) (r : Responder) : Responder :=
  if r.busy && decide (r.remaining = .samples 0) then r.complete c else r

/-- The byte that answers a status read, after step (1), and the responder after step (3) (R61). -/
def Responder.status (c : Config) (free : Byte) (r : Responder) : Byte × Responder :=
  let r1 := r.settle c
  (statusByte c.busyMask free r1.busy, if r1.busy then { r1 with remaining := r1.remaining.less } else r1)

/-- The identification byte of the k-th transfer after the opcode; beyond the third, any value (R61, log 25). -/
def jedecByte (c : Config) (free : Byte) : Nat → Byte
  | 0 => c.jedecMfr
  | 1 => c.jedecType
  | 2 => c.jedecCap
  | _ => free

/-- The answer to the k-th data transfer of a read at `addr` (R60); an address the array does not have makes the responder
refuse: the byte is any value and nothing is known of the device from then on (R68, log 16). -/
def Responder.readData (c : Config) (free : Byte) (r : Responder) (addr : Addr24) (k : Nat) : Byte × Device :=
  if addr.toNat + k < c.capacity then (Memory.read r.mem (addr.toNat + k), .responder r) else (free, Device.unknown)

/-- The answer to one byte `out` and the device after it, when the bytes `got` have been received in the open frame
(R59 to R61, R66). Every transfer after 0x05 is a status sample (log 25). -/
def Responder.answerIn (c : Config) (free out : Byte) (r : Responder) (got : List Byte) : Byte × Device :=
  let r' : Responder := { r with frame := some (got ++ [out]) }
  match got with
  | [] => (free, .responder r')
  | op :: args =>
    if op = opRdsr1 then ((r'.status c free).1, .responder (r'.status c free).2)
    else if r.busy then (free, .responder r')
    else if op = opJedecId then (jedecByte c free args.length, .responder r')
    else if op = opRead then
      match args with
      | a2 :: a1 :: a0 :: dummies => r'.readData c free (addressOf a2 a1 a0) dummies.length
      | _ => (free, .responder r')
    else (free, .responder r')

/-- The device's side of one byte transfer: the MISO byte and the device after it. A deselected responder does not take part. -/
def Device.answer (c : Config) (free out : Byte) : Device → Byte × Device
  | .script [] => (free, .script [])
  | .script (b :: bs) => (b, .script bs)
  | .responder r =>
    match r.frame with
    | none => (free, .responder r)
    | some got => r.answerIn c free out got

/-- `Sel`: a frame opens (R59). -/
def Device.opened : Device → Device
  | .responder r => .responder { r with frame := some [] }
  | .script l => .script l

/-- An erase or a program starts: `busy <- 1`, `remaining <-` a draw, the effect pending (R62, R64, R65). The draw is the run's
next supplied one, or the free one. -/
def Responder.begin (free : Option Nat) (p : Pending) (r : Responder) : Responder :=
  { r with
    busy := true
    pending := some p
    remaining := r.draws.headD (Remaining.ofFree free)
    draws := r.draws.tail }

/-- The effect at `Desel` of a program frame with the bytes `args` after its opcode (R62, R68). -/
def Responder.closeProgram (c : Config) (free : Option Nat) (r : Responder) : List Byte → Device
  | a2 :: a1 :: a0 :: data =>
    if (addressOf a2 a1 a0).toNat + data.length ≤ c.capacity then
      .responder (if r.wel then r.begin free (.program (addressOf a2 a1 a0).toNat data) else r)
    else Device.unknown
  | _ => Device.unknown

/-- The effect at `Desel` of the frame whose bytes were `op :: args`, on a responder that has closed it (R61 to R68). A busy
responder ignores every frame (R66). -/
def Responder.closeFrame (c : Config) (free : Option Nat) (r : Responder) (op : Byte) (args : List Byte) : Device :=
  if r.busy then .responder r
  else if op = opRdsr1 ∨ op = opJedecId ∨ op = opRead then .responder r
  else if op = opWren then .responder { r with wel := true }
  else if op = opWrdi then .responder { r with wel := false }
  else if op = opChipErase then .responder (if r.wel then r.begin free .erase else r)
  else if op = opPp then r.closeProgram c free args
  else Device.unknown

/-- `Desel`: the frame closes and the device acts on it (R101). -/
def Device.closed (c : Config) (free : Option Nat) : Device → Device
  | .script l => .script l
  | .responder r =>
    match r.frame with
    | none => .responder r
    | some [] => .responder { r with frame := none }
    | some (op :: args) => ({ r with frame := none } : Responder).closeFrame c free op args

/-- So many bytes, each any value: the free bytes drawn from the n-th on (R173). -/
def freeBytes (len n : Nat) : List Byte := (List.range len).map fun k => Config.freeByte (n + k)

/-- A responder whose open frame was cut: the latch is any value (R173). -/
def Responder.cutLatch (n : Nat) (r : Responder) : Responder :=
  { r with frame := none, wel := (Config.freeByte n).getLsbD 0 }

/-- A responder whose program frame was cut, with the `len` bytes of the array at `base` left open: besides the latch, those bytes
are any value (R173), and whether the device started on what it had received is open (R174, log 17). -/
def Responder.cutProgram (n : Nat) (base len : Nat) (r : Responder) : Responder :=
  { r.cutLatch n with
    mem := Memory.store r.mem base (freeBytes len (n + 2))
    busy := r.busy || (Config.freeByte (n + 1)).getLsbD 0
    remaining := if r.busy then r.remaining else Remaining.ofFree (Config.freeBusy n) }

/-- A responder whose frame with the opcode `op` and the bytes `args` after it was cut (R173). A program frame leaves the addressed
page open (U18), and the whole array where it had not sent both page bytes; what an erase frame left is unknown (log 17). -/
def Responder.cutFrame (c : Config) (n : Nat) (r : Responder) (op : Byte) (args : List Byte) : Device :=
  if op = opPp then
    match args with
    | a2 :: a1 :: _ =>
      if pageAddress (pageOf a2 a1) < c.capacity then .responder (r.cutProgram n (pageAddress (pageOf a2 a1)) 256)
      else Device.unknown
    | _ => .responder (r.cutProgram n 0 c.capacity)
  else if op = opChipErase then Device.unknown
  else .responder (r.cutLatch n)

/-- The device after a reset of the controller cut the frame it was receiving; no frame open, nothing cut (R173, R174, U18). `next` is
the opcode the controller was about to send in a frame with no byte in it yet. The draws are those from the n-th on. -/
def Device.cut (c : Config) (n : Nat) (next : Option Byte) : Device → Device
  | .script l => .script l
  | .responder r =>
    match r.frame, next with
    | none, _ => .responder r
    | some (op :: args), _ => r.cutFrame c n op args
    | some [], some op => r.cutFrame c n op []
    | some [], none => Device.unknown

/-- How many free values `Device.cut` may draw: two bits and the array. -/
def cutDraws (c : Config) : Nat := 2 + c.capacity

end Sys2Proof.Machine
end

