-- ==== Sys2Proof/Machine/Ops.lean ====
section
/-! DEFINITION. The shared operations of the controller: the transport primitives (R100 to R105), the results a frame stores, the
sequencing operations every command shares (R16, R125, R127, R158), and reset (R170 to R174). -/

namespace Sys2Proof.Machine

/-! ### Transport (40_transport) -/

/-- `Sel`: CS_N falls and a frame opens (R100). -/
def sel (s : State) : State :=
  { s with csN := false, dev := s.dev.opened, trace := .sel :: s.trace }

/-- `Desel`: CS_N rises, the frame closes, and the device acts on it (R101). -/
def desel (s : State) : State :=
  { s with
    csN := true
    dev := s.dev.closed s.cfg (Config.freeBusy s.freeCtr)
    trace := .desel :: s.trace
    freeCtr := s.freeCtr + 1 }

/-- The part of the controller that moves within a byte: BIT_CNT, the shift registers, and the two driven lines (R24, R102). -/
structure Shifter where
  bitCnt : BitVec 3
  sho : Byte
  shi : Byte
  sck : Bool
  mosi : Bool
  deriving DecidableEq, Repr

/-- The shifter of a state that is about to send the byte `out`: SHO <- out (R102). -/
def State.loaded (out : Byte) (s : State) : Shifter :=
  { bitCnt := s.bitCnt, sho := out, shi := s.shi, sck := s.sck, mosi := s.mosi }

/-- MOSI is driven with bit `j` of SHO while SCK = 0 (R102). -/
def driveBit (j : Nat) (w : Shifter) : Shifter :=
  { w with bitCnt := BitVec.ofNat 3 j, mosi := w.sho.getLsbD j }

/-- The leading edge: SCK rises and MISO is sampled into bit `j` of SHI (R14, R102). -/
def riseBit (j : Nat) (miso : Bool) (w : Shifter) : Shifter :=
  { w with sck := true, shi := setBit w.shi j miso }

/-- The trailing edge: SCK falls (R102). -/
def fallBit (w : Shifter) : Shifter := { w with sck := false }

/-- One bit of a transfer, the device presenting bit `j` of `inp` (R102). -/
def bitCycle (inp : Byte) (w : Shifter) (j : Nat) : Shifter := fallBit (riseBit j (inp.getLsbD j) (driveBit j w))

/-- The order of the bits on the wire: most significant first (R43). -/
def bitOrder : List Nat := [7, 6, 5, 4, 3, 2, 1, 0]

/-- The eight bit cycles of `transfer_byte`: SHO goes out on MOSI, `inp` comes from MISO into SHI (R102). -/
def shiftBits (inp : Byte) (w : Shifter) : Shifter := bitOrder.foldl (bitCycle inp) w

/-- A state with its shifter as the byte transfer left it. -/
def State.withShifter (s : State) (w : Shifter) : State :=
  { s with bitCnt := w.bitCnt, sho := w.sho, shi := w.shi, sck := w.sck, mosi := w.mosi }

/-- The bit level of `transfer_byte`: `out` goes through SHO to MOSI, `inp` from MISO into SHI (R102). -/
def shiftByte (out inp : Byte) (s : State) : State := s.withShifter (shiftBits inp (s.loaded out))

/-- The levels of (SCK, MOSI) after each pin change of the bits in the list (R102: drive, rise, fall): the refinement of one byte
event that R103 lets a model leave out. CS_N is 0 throughout. -/
def bitWave (inp : Byte) : List Nat → Shifter → List (Bool × Bool)
  | [], _ => []
  | j :: js, w =>
    let drive := driveBit j w
    let rise := riseBit j (inp.getLsbD j) drive
    let fall := fallBit rise
    (drive.sck, drive.mosi) :: (rise.sck, rise.mosi) :: (fall.sck, fall.mosi) :: bitWave inp js (bitCycle inp w j)

/-- The levels of (SCK, MOSI) through one `transfer_byte` of `out` from a state (R102). -/
def byteWave (out inp : Byte) (s : State) : List (Bool × Bool) := bitWave inp bitOrder (s.loaded out)

/-- The MISO byte the device answers to `out`, and the device after it. -/
def State.answer (s : State) (out : Byte) : Byte × Device := s.dev.answer s.cfg (Config.freeByte s.freeCtr) out

/-- `X(out)`: one full-duplex byte transfer; the byte received is left in SHI (R102, R103). It always completes (R107). -/
def xByte (out : Byte) (s : State) : State :=
  shiftByte out (s.answer out).1
    { s with
      dev := (s.answer out).2
      trace := .x out (s.answer out).1 :: s.trace
      freeCtr := s.freeCtr + 1 }

/-- The first byte of a frame: byte 0 (R24, R70). -/
def xOpcode (op : Byte) (s : State) : State := xByte op { s with byteCnt := 0 }

/-- The next byte of the frame: BYTE_CNT names it (R24, log 13). -/
def xNext (out : Byte) (s : State) : State := xByte out { s with byteCnt := s.byteCnt + 1 }

/-- A byte received: the master sends DUMMY_BYTE (R78, R105). -/
def xFill (s : State) : State := xNext s.cfg.dummyByte s

/-- A status byte received: byte 1 of its frame (R114), and of a continuous poll each byte after the opcode, BYTE_CNT staying at 1
(log 15). -/
def xSample (s : State) : State := xByte s.cfg.dummyByte { s with byteCnt := 1 }

/-! ### Results of a frame -/

/-- `ID[k] <- in` (R21). -/
def storeId (k : Fin 3) (s : State) : State := { s with id := s.id.set k s.shi }

/-- `RXBUF[i] <- in` (R19). -/
def storeRx (i : Fin 256) (s : State) : State := { s with rxbuf := s.rxbuf.set i s.shi }

/-- `SAMPLE <- in` (R24, R114). -/
def storeSample (s : State) : State := { s with sample := s.shi }

/-! ### Sequencing -/

/-- SEQ_STEP <- the row (R20). -/
def goto (c : Command) (r : Row) (s : State) : State := { s with seq := .at c r }

/-- → END: SEQ_STEP <- IDLE, CTRL_BUSY <- 0 (R20, 42_commands). -/
def endCommand (s : State) : State := { s with seq := .idle, ctrlBusy := false }

/-- → POLL: on to row P0, with POLL_CNT <- 0 on entry (R125, R158, log 14). -/
def enterPoll (c : Command) (s : State) : State := { s with seq := .at c .p0, pollCnt := 0 }

/-- The first row of a command's table (R120 to R124). -/
def firstRow : Command → Row
  | .identify => .i0
  | .eraseChip => .e0
  | .readPage => .rd0
  | .writePage => .w0
  | .pollUntilReady => .p0

/-- A command is accepted: CTRL_BUSY <- 1, PAGE_LATCH <- PAGE_INDEX, SEQ_STEP <- its first row (R16, R127), ERR_TIMEOUT <- 0
(R158); POLL_UNTIL_READY enters its poll at once, so POLL_CNT <- 0 (R158). -/
def accept (c : Command) (s : State) : State :=
  { s with
    ctrlBusy := true
    pageLatch := s.pageIndex
    seq := .at c (firstRow c)
    errTimeout := false
    pollCnt := if c = .pollUntilReady then 0 else s.pollCnt }

/-- The row after the sample of row P2: its frame closes (R125), or the test comes with the frame still open (D7, log 15). -/
def sampledRow : PollFraming → Row
  | .perSample => .p3
  | .continuous => .p4

/-- After row P3's `Desel`: on to the test (R125), or, in a continuous poll, the end of the command (log 15). -/
def afterDesel (c : Command) (s : State) : State :=
  match s.cfg.pollFraming with
  | .perSample => goto c .p4 s
  | .continuous => endCommand s

/-- The row for another sample: another frame (R125), or another byte of the open frame (D7, log 15). -/
def againRow : PollFraming → Row
  | .perSample => .p0
  | .continuous => .p2

/-- The poll is over: → END (R125), by way of row P3 where the frame is still open (D7, log 15). -/
def leavePoll (c : Command) (s : State) : State :=
  match s.cfg.pollFraming with
  | .perSample => endCommand s
  | .continuous => goto c .p3 s

/-- `raise DeviceTimeout`: the command ends with ERR_TIMEOUT = 1 and no trap is taken (R158). It is the one condition the spec
calls an exception of the controller; there is no handler to go to and nothing to return from (R150, R155, R157). -/
def raiseDeviceTimeout (c : Command) (s : State) : State := leavePoll c { s with errTimeout := true }

/-- Row P4: the test of the sample, bounded where POLL_LIMIT is set (R125, R158). -/
def pollTest (c : Command) (s : State) : State :=
  match s.cfg.pollLimit with
  | none => if s.sampleBusy then goto c (againRow s.cfg.pollFraming) s else leavePoll c s
  | some n =>
    let s1 : State := { s with pollCnt := s.pollCnt + 1 }
    if s1.sampleBusy = false then leavePoll c s1
    else if s1.pollCnt = n then raiseDeviceTimeout c s1
    else goto c (againRow s.cfg.pollFraming) s1

/-! ### Reset -/

/-- The opcode a row sends (R120 to R125). -/
def Row.opcode : Row → Option Byte
  | .i1 => some opJedecId
  | .e1 | .w1 => some opWren
  | .e4 => some opChipErase
  | .rd1 => some opRead
  | .w4 => some opPp
  | .p1 => some opRdsr1
  | _ => none

/-- The opcode the controller is about to send, where it stands at a row that sends one. -/
def State.nextOpcode (s : State) : Option Byte :=
  match s.seq with
  | .idle => none
  | .at _ r => r.opcode

/-- The device after a reset: it is not reset (R174), but a frame open on the bus is cut (R173). -/
def State.devAfterReset (s : State) : Device := if s.csN then s.dev else s.dev.cut s.cfg s.freeCtr s.nextOpcode

/-- The trace after a reset: a frame open on the bus is marked as cut (R173). -/
def State.traceAfterReset (s : State) : List BusEvent := if s.csN then s.trace else .cut :: s.trace

/-- Reset (R170, R173): every piece of the controller at its value of R30, whatever it was doing; the configuration stays (R15);
the host's moves, the last read value and the recorded trace are not the controller's and go on. -/
def resetController (s : State) : State :=
  { State.reset with
    cfg := s.cfg
    dev := s.devAfterReset
    agenda := s.agenda
    rdata := s.rdata
    trace := s.traceAfterReset
    freeCtr := s.freeCtr + cutDraws s.cfg }

end Sys2Proof.Machine
end

