-- ==== Sys2Proof/Machine/Frames.lean ====
section
/-! DEFINITION. The meanings of the seven wire frames (41_frames): the bus events of R110 to R116 in order, what is stored and what
is discarded. -/

namespace Sys2Proof.Machine

/-- A frame of the opcode alone, format F-OP (R71). -/
def opFrame (op : Byte) (s : State) : State := desel (xOpcode op (sel s))

/-- The frame JEDEC_ID (R110): three bytes received into ID. -/
def jedecIdFrame (s : State) : State :=
  desel (storeId 2 (xFill (storeId 1 (xFill (storeId 0 (xFill (xOpcode opJedecId (sel s))))))))

/-- A status frame up to its first status byte, received into SAMPLE (R114). -/
def statusPhase (s : State) : State := storeSample (xSample (xOpcode opRdsr1 (sel s)))

/-- The frame RDSR1 (R114): one status byte received into SAMPLE. -/
def rdsr1Frame (s : State) : State := desel (statusPhase s)

/-- The opcode and the three address bytes of a read or program frame (R73, R77). -/
def addressPhase (op : Byte) (p : PageIndex) (s : State) : State :=
  xNext 0x00 (xNext (loByte p) (xNext (hiByte p) (xOpcode op (sel s))))

/-- The data phase of a read: `d[i] <- X(DUMMY_BYTE)` for the page bytes of the list, in order (R115). -/
def readPhase (is : List (Fin 256)) (s : State) : State := is.foldl (fun s i => storeRx i (xFill s)) s

/-- The data phase of a program: `X(b[i])` for the page bytes of the list, in order (R116). -/
def programPhase (is : List (Fin 256)) (s : State) : State := is.foldl (fun s i => xNext s.txbuf[i] s) s

/-- The frame READ of the page `p` (R115). -/
def readFrame (p : PageIndex) (s : State) : State := desel (readPhase (List.finRange 256) (addressPhase opRead p s))

/-- The frame PP of the page `p` (R116). -/
def ppFrame (p : PageIndex) (s : State) : State := desel (programPhase (List.finRange 256) (addressPhase opPp p s))

/-- JEDEC_ID (R110). -/
def execJedecId (s : State) : Host.Outcome State Fault Refusal := .next (jedecIdFrame s)

/-- WREN (R111): in the device the latch is set at `Desel` (R63). -/
def execWren (s : State) : Host.Outcome State Fault Refusal := .next (opFrame opWren s)

/-- WRDI (R112), "were it ever sent": no host command sends it (R88). -/
def execWrdi (s : State) : Host.Outcome State Fault Refusal := .next (opFrame opWrdi s)

/-- CHIP_ERASE (R113): in the device the erase starts at `Desel` (R64). -/
def execChipErase (s : State) : Host.Outcome State Fault Refusal := .next (opFrame opChipErase s)

/-- RDSR1 (R114). -/
def execRdsr1 (s : State) : Host.Outcome State Fault Refusal := .next (rdsr1Frame s)

/-- READ (R115). -/
def execRead (p : PageIndex) (s : State) : Host.Outcome State Fault Refusal := .next (readFrame p s)

/-- PP (R116): in the device the program starts at `Desel` (R62). -/
def execPp (p : PageIndex) (s : State) : Host.Outcome State Fault Refusal := .next (ppFrame p s)

end Sys2Proof.Machine
end

