-- ==== Sys2Proof/Machine/Commands.lean ====
section
/-! DEFINITION. The meanings of the five host commands as the source's blocking calls (42_commands, D1): acceptance (R16, R127), then
the command's wire frames in order (R2), then the first pass of its closing poll. A command whose first sample reads not-busy
ends there; one whose sample reads busy is left at row P0 with CTRL_BUSY = 1, and the steps after it go on polling, without
end if the device never clears busy (R125, R156). In a continuous poll the frame is still open then, and the command is left
at row P3 or P2 (log 15). While CTRL_BUSY = 1 the CMD write is ignored (R25). -/

namespace Sys2Proof.Machine

/-- The first pass of the poll loop: the frame RDSR1, which a continuous poll leaves open (log 15), then the test P4 (R125). -/
def pollOnce (c : Command) (s : State) : State :=
  match s.cfg.pollFraming with
  | .perSample => pollTest c (rdsr1Frame s)
  | .continuous => pollTest c (statusPhase s)

/-- The command runs where the controller is idle and is ignored where it is busy (R16, R25). -/
def whenIdle (c : Command) (run : State → State) (s : State) : State := if s.ctrlBusy then s else run (accept c s)

/-- The frames of IDENTIFY after its acceptance (R120). -/
def runIdentify (s : State) : State :=
  if s.cfg.identifyPolls then pollOnce .identify (enterPoll .identify (jedecIdFrame s)) else endCommand (jedecIdFrame s)

/-- The frames of ERASE_CHIP after its acceptance (R121). -/
def runEraseChip (s : State) : State :=
  pollOnce .eraseChip (enterPoll .eraseChip (opFrame opChipErase (opFrame opWren s)))

/-- The frames of READ_PAGE after its acceptance (R122). -/
def runReadPage (s : State) : State := pollOnce .readPage (enterPoll .readPage (readFrame s.pageLatch s))

/-- The frames of WRITE_PAGE after its acceptance (R123). -/
def runWritePage (s : State) : State :=
  pollOnce .writePage (enterPoll .writePage (ppFrame s.pageLatch (opFrame opWren s)))

/-- POLL_UNTIL_READY after its acceptance: the poll and nothing else (R124). -/
def runPollUntilReady (s : State) : State := pollOnce .pollUntilReady s

/-- IDENTIFY (R120). -/
def execIdentify (s : State) : Host.Outcome State Fault Refusal := .next (whenIdle .identify runIdentify s)

/-- ERASE_CHIP (R121). -/
def execEraseChip (s : State) : Host.Outcome State Fault Refusal := .next (whenIdle .eraseChip runEraseChip s)

/-- READ_PAGE (R122). -/
def execReadPage (s : State) : Host.Outcome State Fault Refusal := .next (whenIdle .readPage runReadPage s)

/-- WRITE_PAGE (R123). -/
def execWritePage (s : State) : Host.Outcome State Fault Refusal := .next (whenIdle .writePage runWritePage s)

/-- POLL_UNTIL_READY (R124). -/
def execPollUntilReady (s : State) : Host.Outcome State Fault Refusal :=
  .next (whenIdle .pollUntilReady runPollUntilReady s)

end Sys2Proof.Machine
end

