-- ==== Sys2Proof/Machine/Dispatch.lean ====
section
/-! DEFINITION. The meaning of every instruction, one arm per constructor. -/

namespace Sys2Proof.Machine

def exec (i : Instr) (s : State) : Host.Outcome State Fault Refusal :=
  match i with
  -- the wire frames (41_frames)
  | .jedecId => Sys2Proof.Machine.execJedecId s
  | .wren => Sys2Proof.Machine.execWren s
  | .wrdi => Sys2Proof.Machine.execWrdi s
  | .chipErase => Sys2Proof.Machine.execChipErase s
  | .rdsr1 => Sys2Proof.Machine.execRdsr1 s
  | .read p => Sys2Proof.Machine.execRead p s
  | .pp p => Sys2Proof.Machine.execPp p s
  -- the host commands (42_commands)
  | .identify => Sys2Proof.Machine.execIdentify s
  | .eraseChip => Sys2Proof.Machine.execEraseChip s
  | .readPage => Sys2Proof.Machine.execReadPage s
  | .writePage => Sys2Proof.Machine.execWritePage s
  | .pollUntilReady => Sys2Proof.Machine.execPollUntilReady s

end Sys2Proof.Machine
end

