-- ==== Sys2Proof/Machine/HostPort.lean ====
section
/-! DEFINITION. The host's register port (R16 to R29): writes and reads by number, ignored or unspecified while a command runs
(R25). -/

namespace Sys2Proof.Machine

/-- A CMD write while idle: the command whose code it is is accepted; a reserved code changes nothing (R16, R87). -/
def startCommand (code : Byte) (s : State) : State :=
  match decodeCommand code with
  | .ok i =>
    match commandOf i with
    | some c => accept c s
    | none => s
  | .error _ => s

/-- A write to a register while idle; read-only and unassigned numbers take no write (R17, R18, R29). A register narrower than the
host's data takes its low bits (log 11). -/
def writeReg (v : BitVec 16) (s : State) : Option HostReg → State
  | some .cmd => startCommand (v.setWidth 8) s
  | some .pageIndex => { s with pageIndex := v }
  | some (.txbuf i) => { s with txbuf := s.txbuf.set i (v.setWidth 8) }
  | some .ctrlStatus => s
  | some (.id _) => s
  | some (.rxbuf _) => s
  | none => s

/-- A host write by number (R25, R29): ignored while CTRL_BUSY = 1. -/
def hostWrite (num : Nat) (v : BitVec 16) (s : State) : State := if s.ctrlBusy then s else writeReg v s (regOf num)

/-- What a read of a register returns while idle (R16 to R22, R29); bytes are zero-extended to the host's data. -/
def readIdle (s : State) : Option HostReg → BitVec 16
  | some .cmd => 0
  | some .ctrlStatus => s.ctrlStatus.setWidth 16
  | some .pageIndex => s.pageIndex
  | some (.id i) => s.id[i].setWidth 16
  | some (.txbuf i) => s.txbuf[i].setWidth 16
  | some (.rxbuf i) => s.rxbuf[i].setWidth 16
  | none => 0

/-- What a read of a register returns while a command runs: the true flags, or an unspecified value for the operand and result
registers (R25); CMD and unassigned numbers read 0 as ever (R16, R29). -/
def readBusy (s : State) : Option HostReg → BitVec 16
  | some .cmd => 0
  | some .ctrlStatus => s.ctrlStatus.setWidth 16
  | some .pageIndex => Config.freeHalf s.freeCtr
  | some (.id _) => (Config.freeByte s.freeCtr).setWidth 16
  | some (.txbuf _) => (Config.freeByte s.freeCtr).setWidth 16
  | some (.rxbuf _) => (Config.freeByte s.freeCtr).setWidth 16
  | none => 0

/-- What a host read by number returns (R25, R29). -/
def readValue (num : Nat) (s : State) : BitVec 16 :=
  if s.ctrlBusy then readBusy s (regOf num) else readIdle s (regOf num)

/-- A host read by number: it changes nothing of the machine (R25, R29). -/
def hostRead (num : Nat) (s : State) : State := { s with rdata := readValue num s, freeCtr := s.freeCtr + 1 }

end Sys2Proof.Machine
end

