-- ==== Sys2Proof/Machine/Sequencer.lean ====
section
/-! DEFINITION. The sequencer: the step tables of R120 to R125, one bus event or one test a row (R20). -/

namespace Sys2Proof.Machine

/-- One row of the step table of the command `c` (R120 to R125). -/
def tickRow (c : Command) (r : Row) (s : State) : State :=
  match r with
  -- IDENTIFY (R120)
  | .i0 => goto c .i1 (sel s)
  | .i1 => goto c .i2 (xOpcode opJedecId s)
  | .i2 => goto c .i3 (storeId 0 (xFill s))
  | .i3 => goto c .i4 (storeId 1 (xFill s))
  | .i4 => goto c .i5 (storeId 2 (xFill s))
  | .i5 => if s.cfg.identifyPolls then enterPoll c (desel s) else endCommand (desel s)
  -- ERASE_CHIP (R121)
  | .e0 => goto c .e1 (sel s)
  | .e1 => goto c .e2 (xOpcode opWren s)
  | .e2 => goto c .e3 (desel s)
  | .e3 => goto c .e4 (sel s)
  | .e4 => goto c .e5 (xOpcode opChipErase s)
  | .e5 => enterPoll c (desel s)
  -- READ_PAGE (R122)
  | .rd0 => goto c .rd1 (sel s)
  | .rd1 => goto c .rd2 (xOpcode opRead s)
  | .rd2 => goto c .rd3 (xNext (hiByte s.pageLatch) s)
  | .rd3 => goto c .rd4 (xNext (loByte s.pageLatch) s)
  | .rd4 => goto c .rd5 (xNext 0x00 s)
  | .rd5 => goto c (if s.byteCnt + 1 < 259 then .rd5 else .rd6) (storeRx (dataIndex (s.byteCnt + 1)) (xFill s))
  | .rd6 => enterPoll c (desel s)
  -- WRITE_PAGE (R123)
  | .w0 => goto c .w1 (sel s)
  | .w1 => goto c .w2 (xOpcode opWren s)
  | .w2 => goto c .w3 (desel s)
  | .w3 => goto c .w4 (sel s)
  | .w4 => goto c .w5 (xOpcode opPp s)
  | .w5 => goto c .w6 (xNext (hiByte s.pageLatch) s)
  | .w6 => goto c .w7 (xNext (loByte s.pageLatch) s)
  | .w7 => goto c .w8 (xNext 0x00 s)
  | .w8 => goto c (if s.byteCnt + 1 < 259 then .w8 else .w9) (xNext s.txbuf[dataIndex (s.byteCnt + 1)] s)
  | .w9 => enterPoll c (desel s)
  -- the busy-poll loop (R125, R158; a continuous one, D7 and log 15)
  | .p0 => goto c .p1 (sel s)
  | .p1 => goto c .p2 (xOpcode opRdsr1 s)
  | .p2 => goto c (sampledRow s.cfg.pollFraming) (storeSample (xSample s))
  | .p3 => afterDesel c (desel s)
  | .p4 => pollTest c s

/-- One step of the controller: the row SEQ_STEP names (R20); nothing while IDLE (R172). -/
def tick (s : State) : State :=
  match s.seq with
  | .idle => s
  | .at c r => tickRow c r s

/-- `n` steps of the controller. -/
def ticks : Nat → State → State
  | 0, s => s
  | n + 1, s => ticks n (tick s)

end Sys2Proof.Machine
end

