-- ==== Sys2Proof/Machine/Fetch.lean ====
section
/-! DEFINITION. What the next step does: the host's next move (95_test_vectors part 3), or one row of the running command. The
controller fetches no instructions (R20, R55); an instruction reaches it as a host move. -/

namespace Sys2Proof.Machine

/-- What a step has found to do: run an instruction on a state, or nothing more than has been done. -/
inductive Fetched where
  | run (i : Instr) (s : State)
  | done (s : State)
  deriving DecidableEq, Repr

/-- `s` with the agenda `rest`. -/
def withAgenda (rest : List HostMove) (s : State) : State := { s with agenda := rest }

/-- `call code`: the code is written to CMD and the instruction it decodes to runs; then the host waits for CTRL_BUSY = 0
(R90). A reserved code is ignored (R87). -/
def fetchCall (code : Byte) (s : State) : Fetched :=
  match decodeCommand code with
  | .ok i => .run i s
  | .error _ => .done s

/-- `frame header`: one wire frame on its own, while no command owns the bus (R48, R187, log 9). Bytes that are no frame send
nothing. -/
def fetchFrame (header : List Byte) (s : State) : Fetched :=
  if s.ctrlBusy then .done s
  else
    match decodeFrame header with
    | .ok i => .run i s
    | .error _ => .done s

/-- `wait`: while CTRL_BUSY = 1 the controller takes its step and the wait goes on; then CTRL_STATUS is read once more and the
host moves on. -/
def fetchWait (rest : List HostMove) (s : State) : Fetched :=
  if s.ctrlBusy then .done (tick s) else .done (hostRead 0x001 (withAgenda rest s))

/-- What the next step does. -/
def fetch (s : State) : Fetched :=
  match s.agenda with
  | [] => .done (tick s)
  | .run :: rest => .done (tick (withAgenda rest s))
  | .wait :: rest => fetchWait rest s
  | .reset :: rest => .done (resetController (withAgenda rest s))
  | .write num v :: rest => .done (hostWrite num v (withAgenda rest s))
  | .read num :: rest => .done (hostRead num (withAgenda rest s))
  | .call code :: rest => fetchCall code (withAgenda (.wait :: rest) s)
  | .frame header :: rest => fetchFrame header (withAgenda rest s)

/-- The host move that carries the instruction of a row of the table, as `decodeTableWord` reads it (log 10): a command's code as
a call, a frame's bytes as a frame. -/
def tableMove (nbits w : Nat) : HostMove :=
  match decodeTableWord nbits w with
  | some i => if i.isCommand then .call i.opcode else .frame (encode i)
  | none => .frame (tableBytes nbits w)

/-- `s` ready for a host move, with that move next: no command is running and no frame is open. In a state that is idle already
only the agenda changes. -/
def withMove (m : HostMove) (s : State) : State :=
  { s with agenda := m :: s.agenda, ctrlBusy := false, seq := .idle, csN := true, sck := false }

end Sys2Proof.Machine
end

