-- ==== Sys2Proof/Machine/Step.lean ====
section
/-! DEFINITION. One step of the machine: what `fetch` finds to do, an instruction run by `exec`. -/

namespace Sys2Proof.Machine

/-- One step: a host move, an instruction a host move carries, or one row of the running command (R20). -/
def step (s : State) : Host.Outcome State Fault Refusal :=
  match fetch s with
  | .run i s' => exec i s'
  | .done s' => .next s'

/-- `s` with the instruction of a table row as the host's next move. -/
def State.withFetchWord (s : State) (nbits w : Nat) : State := withMove (tableMove nbits w) s

end Sys2Proof.Machine
end

