-- ==== Sys2Proof/WellFormed.lean ====
section
/-! DEFINITION. Well-formedness of an instruction and of a configuration.
No instruction is ill-formed: a page operand has 16 bits and every value of them is accepted (R17, R131), the low address byte
is a constant no operand reaches (R46, R77), and a command has no operand in its code (R86). So the checks are those of the
configuration. -/

namespace Sys2Proof

/-- Every instruction is well-formed (R46, R77, R86, R131); one line a constructor, so that an operand added later must be
thought of here. -/
def Instr.wf : Instr → Bool
  | .jedecId => true
  | .wren => true
  | .wrdi => true
  | .chipErase => true
  | .rdsr1 => true
  | .read _ => true
  | .pp _ => true
  | .identify => true
  | .eraseChip => true
  | .readPage => true
  | .writePage => true
  | .pollUntilReady => true

/-- POLL_LIMIT, where it is set, is n ≥ 1 (R158). -/
def Config.limitWf (c : Config) : Bool :=
  match c.pollLimit with
  | none => true
  | some n => decide (1 ≤ n)

/-- BUSY_MASK names the "single busy bit" of the status byte (R26): it is one of the eight one-bit masks. -/
def Config.maskWf (c : Config) : Bool :=
  [0x01#8, 0x02#8, 0x04#8, 0x08#8, 0x10#8, 0x20#8, 0x40#8, 0x80#8].contains c.busyMask

/-- A configuration the rules speak of. -/
def Config.wf (c : Config) : Bool := c.limitWf && c.maskWf

end Sys2Proof
end

