-- ==== Sys2Proof/Safety.lean ====
section
/-! DEFINITION. What counts as a safe run, in the terms the claims use: the framing of the bus, the invariants of R32, the
canonical memory, and the observations claims are stated through. -/

namespace Sys2Proof.Machine

/-! ### The framing of the bus (R11, R70, R101, R117) -/

/-- Where the bus stands after a trace: no frame open, a frame open with so many bytes in it, or framed wrongly. -/
inductive Framing where
  | closed
  | opened (n : Nat)
  | broken
  deriving DecidableEq, Repr

/-- One more bus event: `Sel` opens a frame, `X` adds a byte to it, `Desel` closes it and needs at least one byte (R101), a reset may
cut it anywhere (R173). Anything else breaks the framing (R32 (d)). -/
def Framing.after : Framing → BusEvent → Framing
  | .closed, .sel => .opened 0
  | .opened n, .x _ _ => .opened (n + 1)
  | .opened (_ + 1), .desel => .closed
  | .opened _, .cut => .closed
  | _, _ => .broken

/-- The framing after a trace whose newest event stands first. -/
def framing : List BusEvent → Framing
  | [] => .closed
  | e :: t => (framing t).after e

/-- The rows of each command's step table (R120 to R125); IDENTIFY has the poll rows under IDENTIFY_POLLS. -/
def inTable (polls : Bool) : Command → Row → Bool
  | .identify, r => [.i0, .i1, .i2, .i3, .i4, .i5].contains r || (polls && [.p0, .p1, .p2, .p3, .p4].contains r)
  | .eraseChip, r => [.e0, .e1, .e2, .e3, .e4, .e5, .p0, .p1, .p2, .p3, .p4].contains r
  | .readPage, r => [.rd0, .rd1, .rd2, .rd3, .rd4, .rd5, .rd6, .p0, .p1, .p2, .p3, .p4].contains r
  | .writePage, r =>
    [.w0, .w1, .w2, .w3, .w4, .w5, .w6, .w7, .w8, .w9, .p0, .p1, .p2, .p3, .p4].contains r
  | .pollUntilReady, r => [.p0, .p1, .p2, .p3, .p4].contains r

/-- A frame is open with at least so many bytes in it. -/
def Framing.openFrom (n : Nat) : Framing → Prop
  | .opened m => n ≤ m
  | .closed | .broken => False

/-- Where the bus stands, `f`, when a row is about to be executed (R120 to R125); in the counted rows RD5 and W8 it is BYTE_CNT that
says how many bytes the frame has (R24), and in a continuous poll the frame stays open while samples are taken (log 15). -/
def rowBus (pf : PollFraming) (byteCnt : Nat) (f : Framing) : Row → Prop
  | .i0 | .e0 | .e3 | .rd0 | .w0 | .w3 | .p0 => f = .closed
  | .i1 | .e1 | .e4 | .rd1 | .w1 | .w4 | .p1 => f = .opened 0
  | .i2 | .e2 | .e5 | .rd2 | .w2 | .w5 => f = .opened 1
  | .i3 | .rd3 | .w6 => f = .opened 2
  | .i4 | .rd4 | .w7 => f = .opened 3
  | .i5 => f = .opened 4
  | .rd5 | .w8 => f = .opened (byteCnt + 1)
  | .rd6 | .w9 => f = .opened 260
  | .p2 => match pf with
    | .perSample => f = .opened 1
    | .continuous => f.openFrom 1
  | .p3 => match pf with
    | .perSample => f = .opened 2
    | .continuous => f.openFrom 2
  | .p4 => match pf with
    | .perSample => f = .closed
    | .continuous => f.openFrom 2

/-- BYTE_CNT is the index of the last byte of the open frame, or of the frame just closed (R24), so in the counted rows it lies between 3
and 258; in a continuous poll it stays at 1 (log 15). -/
def rowByteCnt (pf : PollFraming) (byteCnt : Nat) : Row → Prop
  | .i0 | .e0 | .e3 | .rd0 | .w0 | .w3 | .p0 => True
  | .i1 | .e1 | .e4 | .rd1 | .w1 | .w4 | .p1 => True
  | .i2 | .e2 | .e5 | .rd2 | .w2 | .w5 => byteCnt = 0
  | .i3 | .rd3 | .w6 | .p3 | .p4 => byteCnt = 1
  | .i4 | .rd4 | .w7 => byteCnt = 2
  | .i5 => byteCnt = 3
  | .rd5 | .w8 => 3 ≤ byteCnt ∧ byteCnt < 259
  | .rd6 | .w9 => byteCnt = 259
  | .p2 => match pf with
    | .perSample => byteCnt = 0
    | .continuous => byteCnt ≤ 1

/-- What SEQ_STEP says of the rest: idle means CTRL_BUSY = 0 and no frame open (R32 (a)); a row means CTRL_BUSY = 1, a row of the
command's own table, and the bus where that row finds it (R20, R32 (c), (d)). -/
def State.SeqInv (s : State) : Prop :=
  match s.seq with
  | .idle => s.ctrlBusy = false ∧ framing s.trace = .closed
  | .at c r =>
    s.ctrlBusy = true ∧ inTable s.cfg.identifyPolls c r = true ∧
      rowBus s.cfg.pollFraming s.byteCnt (framing s.trace) r ∧ rowByteCnt s.cfg.pollFraming s.byteCnt r

/-- The invariant of the controller (R32): the clock is low at every step boundary, CS_N is 1 exactly when no frame is open, BYTE_CNT
is at most 259 (R24), and SEQ_STEP agrees with the bus. -/
def State.Inv (s : State) : Prop :=
  s.sck = false ∧ s.csN = decide (framing s.trace = .closed) ∧ s.byteCnt ≤ 259 ∧ s.SeqInv

/-! ### The device array -/

/-- A program in flight stays inside the array (R56, R62). -/
def Pending.fits (n : Nat) : Pending → Bool
  | .program a d => decide (a + d.length ≤ n)
  | .erase => true

/-- The responder's array in canonical form and inside the chip (R56, R58), its pending program too; nothing to ask of a scripted
bus. -/
def Device.arrayWf (c : Config) : Device → Bool
  | .responder r =>
    Memory.wf r.mem && Memory.within c.capacity r.mem && (match r.pending with
      | some p => p.fits c.capacity
      | none => true)
  | .script _ => true

/-- The canonical form of the memory the state holds. -/
def State.memWf (s : State) : Bool := s.dev.arrayWf s.cfg

/-- The byte of the device array at an address, for an address the array has and a device that is the responder. -/
def State.peek (s : State) (a : Nat) : Option Byte :=
  match s.dev with
  | .responder r => if a < s.cfg.capacity then some (Memory.read r.mem a) else none
  | .script _ => none

/-- The responder sees a frame open exactly while CS_N = 0 (R59). -/
def Device.inSync (csN : Bool) : Device → Bool
  | .responder r => r.frame.isSome == !csN
  | .script _ => true

/-- The device of the state is in step with CS_N. -/
def State.devInSync (s : State) : Bool := s.dev.inSync s.csN

/-! ### The opcodes on the bus (R88) -/

/-- The six opcodes the controller emits (R2, R88). -/
def emittedOpcodes : List Byte := [opJedecId, opWren, opChipErase, opRdsr1, opRead, opPp]

/-- Every frame of the trace opens with an emitted opcode: the byte right after a `Sel`. -/
def opcodesEmitted : List BusEvent → Bool
  | [] => true
  | .x out _ :: .sel :: t => emittedOpcodes.contains out && opcodesEmitted t
  | _ :: t => opcodesEmitted t

/-- The host has no move that drives a wire frame on its own (log 9). -/
def State.noBench (s : State) : Bool :=
  s.agenda.all fun m => match m with
    | .frame _ => false
    | .write _ _ | .read _ | .run | .wait | .reset | .call _ => true

/-! ### Bus traces (00_scope §5.2, R133) -/

/-- The byte transfers of a frame, in order: the bytes sent paired with the bytes received. -/
def transfers (outs ins : List Byte) : List BusEvent := List.zipWith BusEvent.x outs ins

/-- The bus events of one frame in order: `Sel`, the transfers, `Desel` (R70). -/
def frameEvents (outs ins : List Byte) : List BusEvent := .sel :: transfers outs ins ++ [.desel]

/-- The bus events of the first pass of a poll that receives `b` and then the sample `v`, in order: a status frame (R125), which a
continuous poll leaves open (log 15). -/
def State.pollEvents (s : State) (b v : Byte) : List BusEvent :=
  match s.cfg.pollFraming with
  | .perSample => frameEvents [0x05, s.cfg.dummyByte] [b, v]
  | .continuous => .sel :: transfers [0x05, s.cfg.dummyByte] [b, v]

/-- The bus events that a row of a step table puts on the trace of a state that stands at it: one `Sel`, transfer or `Desel` (R20,
R120 to R125), and none for the test P4. -/
def rowEvents (s : State) : Row → List BusEvent
  | .i0 | .e0 | .e3 | .rd0 | .w0 | .w3 | .p0 => [.sel]
  | .i5 | .e2 | .e5 | .rd6 | .w2 | .w9 | .p3 => [.desel]
  | .p4 => []
  | .i1 => [sent opJedecId]
  | .e1 | .w1 => [sent opWren]
  | .e4 => [sent opChipErase]
  | .rd1 => [sent opRead]
  | .w4 => [sent opPp]
  | .p1 => [sent opRdsr1]
  | .rd2 | .w5 => [sent (hiByte s.pageLatch)]
  | .rd3 | .w6 => [sent (loByte s.pageLatch)]
  | .rd4 | .w7 => [sent 0x00]
  | .w8 => [sent s.txbuf[dataIndex (s.byteCnt + 1)]]
  | .i2 | .i3 | .i4 | .rd5 | .p2 => [sent s.cfg.dummyByte]
where
  /-- The transfer of a byte with the byte the device answers to it. -/
  sent (out : Byte) : BusEvent := .x out (s.answer out).1

/-- The MOSI bytes of the whole frame an instruction is (R70 to R73, R78), none for a host command. -/
def mosiBytes (s : State) : Instr → List Byte
  | .jedecId => [opJedecId, s.cfg.dummyByte, s.cfg.dummyByte, s.cfg.dummyByte]
  | .wren => [opWren]
  | .wrdi => [opWrdi]
  | .chipErase => [opChipErase]
  | .rdsr1 => [opRdsr1, s.cfg.dummyByte]
  | .read p => [opRead, hiByte p, loByte p, 0x00] ++ List.replicate 256 s.cfg.dummyByte
  | .pp p => [opPp, hiByte p, loByte p, 0x00] ++ txBytes s
  | .identify | .eraseChip | .readPage | .writePage | .pollUntilReady => []

/-- What a device answers to a run of bytes in a frame that is open, and the device after it; the free values are those from the
n-th on. -/
def Device.exchange (c : Config) : Nat → List Byte → Device → List Byte × Device
  | _, [], d => ([], d)
  | n, o :: os, d =>
    let a := d.answer c (Config.freeByte n) o
    let r := Device.exchange c (n + 1) os a.2
    (a.1 :: r.1, r.2)

/-- The bytes received in a frame with the MOSI bytes `outs` opened in a state, in order. -/
def State.frameIn (s : State) (outs : List Byte) : List Byte :=
  (Device.exchange s.cfg s.freeCtr outs s.dev.opened).1

/-- The device after that frame has been closed. -/
def State.frameDev (s : State) (outs : List Byte) : Device :=
  (Device.exchange s.cfg s.freeCtr outs s.dev.opened).2.closed s.cfg (Config.freeBusy (s.freeCtr + outs.length))

/-- The registers that no wire frame writes hold in `t` what they hold in `s` (41_frames; CTRL_BUSY, SEQ_STEP and PAGE_LATCH among
them, and the host's side). -/
def State.SameOperands (s t : State) : Prop :=
  t.cfg = s.cfg ∧ t.pageIndex = s.pageIndex ∧ t.txbuf = s.txbuf ∧ t.pageLatch = s.pageLatch ∧ t.ctrlBusy = s.ctrlBusy ∧
    t.errTimeout = s.errTimeout ∧ t.pollCnt = s.pollCnt ∧ t.seq = s.seq ∧ t.agenda = s.agenda ∧ t.rdata = s.rdata

/-- The registers that hold the results of frames: RXBUF, ID, SAMPLE. -/
def State.SameResults (s t : State) : Prop := t.rxbuf = s.rxbuf ∧ t.id = s.id ∧ t.sample = s.sample

/-- Every byte of the device array reads the same. -/
def State.SameArray (s t : State) : Prop := ∀ a, t.peek a = s.peek a

/-- The command `c` has left its poll: it has ended (R125), or, in a continuous poll, it stands at the row P3 that closes the frame and
ends it (log 15). -/
def State.PollLeft (c : Command) (s t : State) : Prop :=
  match s.cfg.pollFraming with
  | .perSample => t.seq = .idle ∧ t.ctrlBusy = false
  | .continuous => t.seq = .at c .p3 ∧ t.ctrlBusy = true

/-- The command `c` goes on for another sample: from row P0 (R125), or, in a continuous poll, from row P2 (log 15). -/
def State.PollAgain (c : Command) (s t : State) : Prop :=
  t.ctrlBusy = true ∧ match s.cfg.pollFraming with
    | .perSample => t.seq = .at c .p0
    | .continuous => t.seq = .at c .p2

/-- How a command stands after the first pass of its closing poll, by the sample it read and POLL_LIMIT (R125, R158): done with the
poll, done with it by a time-out, or going on. `s` is the state the command started from, `t` the one after the pass. -/
def State.PollDecided (c : Command) (s t : State) : Prop :=
  if busyBit s.cfg.busyMask t.sample = false then s.PollLeft c t ∧ t.errTimeout = false
  else if s.cfg.pollLimit = some 1 then s.PollLeft c t ∧ t.errTimeout = true
  else s.PollAgain c t ∧ t.errTimeout = false

/-- What no host command writes but acceptance and the poll's own registers: the configuration, PAGE_INDEX, TXBUF and the host's
side (R17, R18). -/
def State.SameHostSide (s t : State) : Prop :=
  t.cfg = s.cfg ∧ t.pageIndex = s.pageIndex ∧ t.txbuf = s.txbuf ∧ t.agenda = s.agenda ∧ t.rdata = s.rdata

/-- The page lies in the attached chip: p ≤ LAST_PAGE (R56). -/
def hasPage (c : Config) (p : PageIndex) : Prop := p.toNat ≤ c.lastPage.toNat

/-- The responder has nothing in flight (R66). -/
def State.readyResponder (s : State) (r : Responder) : Prop := s.dev = .responder r ∧ r.busy = false

/-- The number of rows from P0 to the first test with it: P0 to P4, or, in a continuous poll, P0 to P2 and P4 (log 15). -/
def passRows : PollFraming → Nat
  | .perSample => 5
  | .continuous => 4

/-- The number of rows of a command's table that run before its first poll decision is made: its own rows, and those of the first pass
where it polls (R120 to R125). -/
def rowCount (c : Config) : Command → Nat
  | .identify => if c.identifyPolls then 6 + passRows c.pollFraming else 6
  | .eraseChip => 6 + passRows c.pollFraming
  | .readPage => 262 + passRows c.pollFraming
  | .writePage => 265 + passRows c.pollFraming
  | .pollUntilReady => passRows c.pollFraming

/-- The number of rows that are left after the first test of a poll whose next `k` samples decide it and whose last one ends it: five a
sample (R125), or, in a continuous poll, two a sample and the closing row (log 15). -/
def pollRest : PollFraming → Nat → Nat
  | .perSample, k => 5 * k
  | .continuous, k => 2 * k + 1

/-- The number of bus events of a poll that takes `n` samples to its end: a frame of four events each (R125), or, in a continuous poll,
one frame with a byte each (log 15). -/
def pollEventCount : PollFraming → Nat → Nat
  | .perSample, n => 4 * n
  | .continuous, n => n + 3

end Sys2Proof.Machine
end

