-- ==== Sys2Proof/Certificates/Slice0/Obligations.lean ====
section
/-! DEFINITION. The statements about the model, for the provers. Each docstring names the rule it formalises. -/

open Sys2Proof Sys2Proof.Machine

/-! ### Encoding -/

/-- Every instruction's words decode, on its own level, to that instruction (R75, R77, R85, R92). -/
def Obligations.EncodedInstructionsDecode : Prop :=
  ∀ i : Instr, decodeAs i.isCommand (encode i) = .ok i

/-- R77: A2 = (p >> 8) & 0xFF = p[15:8], A1 = p & 0xFF = p[7:0], A0 = 0x00, the address A2 ++ A1 ++ A0 is zext_24(p) * 256; every page
has one encoding, every encoding with A0 = 0x00 decodes to exactly one page, and an encoding with another A0 to none. -/
def Obligations.PageAddressEncoding : Prop :=
  (∀ p : PageIndex, ((p >>> 8) &&& 0x00FF#16).setWidth 8 = p.extractLsb' 8 8 ∧ (p &&& 0x00FF#16).setWidth 8 = p.extractLsb' 0 8 ∧
    encode (.read p) = [0x03, p.extractLsb' 8 8, p.extractLsb' 0 8, 0x00] ∧
    encode (.pp p) = [0x02, p.extractLsb' 8 8, p.extractLsb' 0 8, 0x00] ∧
    addressOf (p.extractLsb' 8 8) (p.extractLsb' 0 8) 0x00 = p.setWidth 24 * 256) ∧
  (∀ a2 a1 : Byte, ∃ p : PageIndex, ∀ q : PageIndex,
    (decodeFrame [0x03, a2, a1, 0x00] = .ok (.read q) ↔ q = p) ∧ (encode (.read q) = [0x03, a2, a1, 0x00] ↔ q = p) ∧
    (decodeFrame [0x02, a2, a1, 0x00] = .ok (.pp q) ↔ q = p) ∧ (encode (.pp q) = [0x02, a2, a1, 0x00] ↔ q = p)) ∧
  (∀ (a2 a1 a0 : Byte) (i : Instr), a0 ≠ 0x00 →
    decodeFrame [0x03, a2, a1, a0] ≠ .ok i ∧ decodeFrame [0x02, a2, a1, a0] ≠ .ok i)

/-- A few words of the tables R75, R79 and R85 decode to the instructions they stand for (sanity). -/
def Obligations.TableWordsDecode : Prop :=
  decodeFrame [0x9F] = .ok .jedecId ∧ decodeFrame [0x06] = .ok .wren ∧ decodeFrame [0x04] = .ok .wrdi ∧
  decodeFrame [0xC7] = .ok .chipErase ∧ decodeFrame [0x05] = .ok .rdsr1 ∧
  decodeFrame [0x03, 0x12, 0x34, 0x00] = .ok (.read 0x1234) ∧ decodeFrame [0x02, 0xFF, 0xFF, 0x00] = .ok (.pp 0xFFFF) ∧
  decodeCommand 0x9F = .ok .identify ∧ decodeCommand 0xC7 = .ok .eraseChip ∧ decodeCommand 0x03 = .ok .readPage ∧
  decodeCommand 0x02 = .ok .writePage ∧ decodeCommand 0x05 = .ok .pollUntilReady

/-- R76: the length of a whole frame is a function of its opcode byte. -/
def Obligations.FrameLengthByOpcode : Prop :=
  (∀ (s : State) (i : Instr), i.isCommand = false → (mosiBytes s i).length = frameLength i.opcode) ∧
  frameLength 0x06 = 1 ∧ frameLength 0x04 = 1 ∧ frameLength 0xC7 = 1 ∧ frameLength 0x05 = 2 ∧ frameLength 0x9F = 4 ∧
  frameLength 0x03 = 260 ∧ frameLength 0x02 = 260

/-! ### Transport -/

/-- R102, R43, R12, R13: in one byte transfer SCK is low at both ends and each bit, most significant first, is driven on MOSI while
SCK is low, held through the rising edge and the falling edge; the byte received is the byte the device answered. -/
def Obligations.ByteTransferOnThePins : Prop :=
  ∀ (out inp : Byte) (s : State), s.sck = false →
    byteWave out inp s =
      ([7, 6, 5, 4, 3, 2, 1, 0].flatMap fun j =>
        [(false, out.getLsbD j), (true, out.getLsbD j), (false, out.getLsbD j)]) ∧
    (shiftByte out inp s).sho = out ∧ (shiftByte out inp s).shi = inp ∧ (shiftByte out inp s).mosi = out.getLsbD 0 ∧
    (shiftByte out inp s).sck = false ∧
    ∀ w : Shifter, (shiftBits inp w).shi = inp ∧ (shiftBits inp w).sck = false ∧ (shiftBits inp w).mosi = w.sho.getLsbD 0 ∧
      (shiftBits inp w).sho = w.sho ∧ (shiftBits inp w).bitCnt = 0

/-! ### Wire frames -/

/-- R70 to R73, R110 to R116: every wire frame completes, on every state and whatever the device answers: it is `Sel`, its MOSI bytes
in order, `Desel`; the device sees exactly that frame, CS_N and SCK end idle. -/
def Obligations.FramesSendTheirBytes : Prop :=
  ∀ (s : State) (i : Instr), i.isCommand = false → ∃ t : State, exec i s = .next t ∧
    t.trace = (frameEvents (mosiBytes s i) (s.frameIn (mosiBytes s i))).reverse ++ s.trace ∧
    t.dev = s.frameDev (mosiBytes s i) ∧ t.csN = true ∧ t.sck = false

/-- R103, R107: on a bus whose answers are supplied, the bytes received in a frame are the supply in order, any bytes at all, and the
rest of the supply remains. -/
def Obligations.SuppliedAnswersAreReceived : Prop :=
  ∀ (s : State) (i : Instr) (ins rest : List Byte), i.isCommand = false → ins.length = (mosiBytes s i).length →
    s.dev = .script (ins ++ rest) → ∃ t : State, exec i s = .next t ∧
      t.trace = (frameEvents (mosiBytes s i) ins).reverse ++ s.trace ∧ t.dev = .script rest

/-- R110: JEDEC_ID is `Sel, X(9F), X(D), X(D), X(D), Desel`; the first byte received is discarded and the three after it are ID, raw,
whatever they are; no other register it could write changes, and the frame does not change the device. -/
def Obligations.JedecIdFrame : Prop :=
  ∀ s : State, ∃ (b m ty cap : Byte) (t : State), exec .jedecId s = .next t ∧
    t.trace = .desel :: .x s.cfg.dummyByte cap :: .x s.cfg.dummyByte ty :: .x s.cfg.dummyByte m :: .x 0x9F b :: .sel :: s.trace ∧
    t.id = #v[m, ty, cap] ∧ s.SameOperands t ∧ t.rxbuf = s.rxbuf ∧ t.sample = s.sample ∧
    (∀ b' m' ty' cap' rest, s.dev = .script (b' :: m' :: ty' :: cap' :: rest) → m = m' ∧ ty = ty' ∧ cap = cap') ∧
    (∀ r, s.dev = .responder r → t.dev = .responder { r with frame := none })

/-- R111, R112, R113: WREN, WRDI and CHIP_ERASE are `Sel, X(opcode), Desel`; they write no register of the controller. Every byte of the
device array as the model holds it is as it was when the frame ends: that an erase in flight leaves the old bytes standing until it
is done is the model's choice (log 26), R64 calls them undefined meanwhile. -/
def Obligations.OpcodeOnlyFrames : Prop :=
  ∀ (s : State) (i : Instr), i = .wren ∨ i = .wrdi ∨ i = .chipErase → ∃ (b : Byte) (t : State), exec i s = .next t ∧
    t.trace = .desel :: .x i.opcode b :: .sel :: s.trace ∧ s.SameOperands t ∧ s.SameResults t ∧ s.SameArray t

/-- R114: RDSR1 is `Sel, X(05), X(D), Desel`; the second byte received is SAMPLE; no other register it could write changes. -/
def Obligations.StatusFrame : Prop :=
  ∀ s : State, ∃ (b : Byte) (t : State), exec .rdsr1 s = .next t ∧
    t.trace = .desel :: .x s.cfg.dummyByte t.sample :: .x 0x05 b :: .sel :: s.trace ∧
    s.SameOperands t ∧ t.rxbuf = s.rxbuf ∧ t.id = s.id ∧
    (∀ b' v rest, s.dev = .script (b' :: v :: rest) → t.sample = v)

/-- R115: READ of any page p is 03, hi(p), lo(p), 00 and 256 fill bytes; the i-th data byte received is RXBUF[i]; the first four bytes
received are discarded; no other register it could write changes. -/
def Obligations.ReadFrame : Prop :=
  ∀ (p : PageIndex) (s : State), ∃ (hdr : Vector Byte 4) (d : Vector Byte 256) (t : State), exec (.read p) s = .next t ∧
    t.trace = (frameEvents ([0x03, hiByte p, loByte p, 0x00] ++ List.replicate 256 s.cfg.dummyByte)
      (hdr.toList ++ d.toList)).reverse ++ s.trace ∧
    t.rxbuf = d ∧ s.SameOperands t ∧ t.id = s.id ∧ t.sample = s.sample

/-- R116: PP of any page p is 02, hi(p), lo(p), 00 and the 256 bytes of TXBUF in order; everything received is discarded: no register
it could write changes. -/
def Obligations.ProgramFrame : Prop :=
  ∀ (p : PageIndex) (s : State), ∃ (ins : Vector Byte 260) (t : State), exec (.pp p) s = .next t ∧
    t.trace = (frameEvents ([0x02, hiByte p, loByte p, 0x00] ++ s.txbuf.toList) ins.toList).reverse ++ s.trace ∧
    s.SameOperands t ∧ s.SameResults t

/-- R18, R19, R21, R24, 41_frames: no wire frame writes an operand or control register, only READ writes RXBUF, only JEDEC_ID writes
ID, only RDSR1 writes SAMPLE. -/
def Obligations.FramesKeepRegisters : Prop :=
  ∀ (i : Instr) (s t : State), i.isCommand = false → exec i s = .next t →
    s.SameOperands t ∧ ((∀ p, i ≠ .read p) → t.rxbuf = s.rxbuf) ∧ (i ≠ .jedecId → t.id = s.id) ∧
    (i ≠ .rdsr1 → t.sample = s.sample)

/-! ### The device's side -/

/-- R60, R61, R66: no wire frame changes a byte of the array as the model holds it but a status read that finds an operation finished: a
program or an erase only starts at `Desel`. That the bytes of an operation in flight are the old ones until it is done is the model's
choice (log 26); R62 and R64 call them undefined. A read or program beyond the chip is left to `BeyondTheChipNothingIsKnown` (log 16). -/
def Obligations.FramesKeepTheArray : Prop :=
  ∀ (i : Instr) (s t : State), i.isCommand = false → exec i s = .next t →
    (∀ r, s.dev = .responder r →
      (i = .rdsr1 → ¬ (r.busy = true ∧ r.remaining = .samples 0)) ∧
      (∀ p, i = .read p ∨ i = .pp p → r.busy = true ∨ hasPage s.cfg p)) →
    s.SameArray t

/-- R61: the ready responder answers the identify frame with its three bytes; a status read first completes an operation with no busy
sample left, then answers busy exactly when the device still is, then counts one busy sample down. -/
def Obligations.IdentifyAndStatusAnswers : Prop :=
  ∀ (s : State) (r : Responder), s.dev = .responder r →
    (r.busy = false → ∃ t, exec .jedecId s = .next t ∧ t.id = #v[s.cfg.jedecMfr, s.cfg.jedecType, s.cfg.jedecCap] ∧
      t.dev = .responder { r with frame := none }) ∧
    (s.cfg.busyMask ≠ 0 → ∃ t, exec .rdsr1 s = .next t ∧
      (r.busy = true ∧ r.remaining = .samples 0 → busyBit s.cfg.busyMask t.sample = false ∧
        t.dev = .responder { r with mem := (r.complete s.cfg).mem, busy := false, wel := false, pending := none, frame := none }) ∧
      (r.busy = true ∧ r.remaining ≠ .samples 0 → busyBit s.cfg.busyMask t.sample = true ∧
        t.dev = .responder { r with remaining := r.remaining.less, frame := none }) ∧
      (r.busy = false → busyBit s.cfg.busyMask t.sample = false ∧ t.dev = .responder { r with frame := none }))

/-- R60: a read of a page of the chip from the ready responder returns mem[p*256 .. p*256+255] and leaves the device as it was. -/
def Obligations.ReadReturnsThePage : Prop :=
  ∀ (p : PageIndex) (s : State) (r : Responder), s.readyResponder r → hasPage s.cfg p →
    ∃ t, exec (.read p) s = .next t ∧
      (∀ i : Fin 256, t.rxbuf[i] = Memory.read r.mem (pageAddress p + i.val)) ∧
      t.dev = .responder { r with frame := none }

/-- R63: a write-enable frame sets the latch of the ready responder, a write-disable frame clears it; nothing else of it moves. -/
def Obligations.WriteEnableLatch : Prop :=
  ∀ (s : State) (r : Responder), s.readyResponder r →
    (∃ t, exec .wren s = .next t ∧ t.dev = .responder { r with wel := true, frame := none }) ∧
    (∃ t, exec .wrdi s = .next t ∧ t.dev = .responder { r with wel := false, frame := none })

/-- R62, R64, R65: with the latch set, a program frame to a page of the chip, or an erase frame, makes the ready responder busy with that
operation pending and the next draw as its duration; with the latch clear the frame has no effect. The model's choices: the array keeps
its old bytes while the operation is pending (log 26), and the draw is the head of the run's list, or free where the list is empty
(log 6). -/
def Obligations.ProgramAndEraseStart : Prop :=
  ∀ (s : State) (r : Responder), s.readyResponder r →
    (∀ p, hasPage s.cfg p → ∃ t, exec (.pp p) s = .next t ∧
      (r.wel = false → t.dev = .responder { r with frame := none }) ∧
      (r.wel = true → ∃ free, t.dev = .responder { r with
        frame := none, busy := true, pending := some (.program (pageAddress p) (txBytes s)),
        remaining := r.draws.headD (Remaining.ofFree free), draws := r.draws.tail })) ∧
    (∃ t, exec .chipErase s = .next t ∧
      (r.wel = false → t.dev = .responder { r with frame := none }) ∧
      (r.wel = true → ∃ free, t.dev = .responder { r with
        frame := none, busy := true, pending := some .erase,
        remaining := r.draws.headD (Remaining.ofFree free), draws := r.draws.tail }))

/-- R66: a busy responder ignores every frame but the status read. -/
def Obligations.BusyDeviceIgnoresFrames : Prop :=
  ∀ (i : Instr) (s : State) (r : Responder), i.isCommand = false → i ≠ .rdsr1 → s.dev = .responder r → r.busy = true →
    ∃ t, exec i s = .next t ∧ t.dev = .responder { r with frame := none }

/-- R68 and log 16 (the model's choice of how the responder "refuses"): a read or program of a page beyond the chip is sent and the
machine goes on, but nothing is known of the ready device from then on. -/
def Obligations.BeyondTheChipNothingIsKnown : Prop :=
  ∀ (i : Instr) (p : PageIndex) (s : State) (r : Responder), i = .read p ∨ i = .pp p → s.readyResponder r →
    ¬ hasPage s.cfg p → ∃ t, exec i s = .next t ∧ t.dev = .script []

/-- R49: programming the same data at the same place twice leaves what programming it once leaves, byte for byte. -/
def Obligations.ProgramTwiceIsProgramOnce : Prop :=
  ∀ (m : Memory) (a : Nat) (d : List Byte) (x : Nat), Memory.wf m = true →
    Memory.read (Memory.program (Memory.program m a d) a d) x = Memory.read (Memory.program m a d) x

/-! ### Host commands -/

/-- R120 to R125 against R110 to R116: for an idle controller, the meaning of a host command as a run of wire frames is what its step
table does row by row from acceptance, state for state, up to the first poll decision; that a call stops there is the model's choice
(log 8). -/
def Obligations.CommandsFollowTheirStepTables : Prop :=
  ∀ (i : Instr) (c : Command) (s : State), commandOf i = some c → s.ctrlBusy = false →
    exec i s = .next (ticks (rowCount s.cfg c) (accept c s))

/-- R16, R158: a CMD write of a code while idle starts the command whose code it is, in the same step: CTRL_BUSY <- 1, PAGE_LATCH <-
PAGE_INDEX, SEQ_STEP <- the first row of its table, and ERR_TIMEOUT <- 0 (without a POLL_LIMIT the model's own, log 14; POLL_CNT is not
named here); a reserved code changes nothing; CMD stores nothing and reads 0, while a command runs too (log 12). -/
def Obligations.CommandAcceptance : Prop :=
  (∀ (s : State) (code : Byte), s.ctrlBusy = false →
    (∀ (c : Command) (r : Row),
      (code, c, r) ∈ [(0x9F#8, Command.identify, Row.i0), (0xC7#8, .eraseChip, .e0), (0x03#8, .readPage, .rd0),
        (0x02#8, .writePage, .w0), (0x05#8, .pollUntilReady, .p0)] →
      hostWrite 0x000 (code.setWidth 16) s =
        { s with ctrlBusy := true, pageLatch := s.pageIndex, seq := .at c r, errTimeout := false,
                 pollCnt := (hostWrite 0x000 (code.setWidth 16) s).pollCnt }) ∧
    (code ∉ [0x9F#8, 0xC7#8, 0x03#8, 0x02#8, 0x05#8] → hostWrite 0x000 (code.setWidth 16) s = s)) ∧
  ∀ s : State, readValue 0x000 s = 0

/-- R120: IDENTIFY of an idle controller that does not poll after it: the six events of rows I0 to I5, ID the three bytes received, the
controller idle again; RXBUF, TXBUF and PAGE_INDEX untouched. PAGE_LATCH is R127's; ERR_TIMEOUT = 0 is R158's, without a POLL_LIMIT the
model's own, as is that POLL_CNT stays (log 14). -/
def Obligations.IdentifyCommand : Prop :=
  ∀ s : State, s.ctrlBusy = false → s.cfg.identifyPolls = false →
    ∃ (b m ty cap : Byte) (t : State), exec .identify s = .next t ∧
      t.trace = .desel :: .x s.cfg.dummyByte cap :: .x s.cfg.dummyByte ty :: .x s.cfg.dummyByte m :: .x 0x9F b :: .sel :: s.trace ∧
      t.id = #v[m, ty, cap] ∧ t.ctrlBusy = false ∧ t.seq = .idle ∧ t.pageLatch = s.pageIndex ∧
      s.SameHostSide t ∧ t.rxbuf = s.rxbuf ∧ t.sample = s.sample ∧ t.errTimeout = false ∧ t.pollCnt = s.pollCnt

/-- R120 with IDENTIFY_POLLS = true: the identify frame is followed by the poll, decided by its first sample. ERR_TIMEOUT and the limit of
one sample are R158's, without a POLL_LIMIT the model's own (log 14); a continuous poll is the model's rendering of D7 (log 15). -/
def Obligations.IdentifyThatPolls : Prop :=
  ∀ s : State, s.ctrlBusy = false → s.cfg.identifyPolls = true →
    ∃ (b m ty cap b' : Byte) (t : State), exec .identify s = .next t ∧
      t.trace = (frameEvents [0x9F, s.cfg.dummyByte, s.cfg.dummyByte, s.cfg.dummyByte] [b, m, ty, cap] ++
        s.pollEvents b' t.sample).reverse ++ s.trace ∧
      t.id = #v[m, ty, cap] ∧ s.PollDecided .identify t ∧ s.SameHostSide t ∧ t.rxbuf = s.rxbuf

/-- R121, R127: ERASE_CHIP of an idle controller: a write-enable frame, a chip-erase frame, then the poll, decided by its first sample; no
result register changes. ERR_TIMEOUT and the limit of one sample are R158's, without a POLL_LIMIT the model's own (log 14); a continuous
poll is the model's rendering of D7 (log 15). -/
def Obligations.EraseChipCommand : Prop :=
  ∀ s : State, s.ctrlBusy = false → ∃ (b0 b1 b2 : Byte) (t : State), exec .eraseChip s = .next t ∧
    t.trace = (frameEvents [0x06] [b0] ++ frameEvents [0xC7] [b1] ++
      s.pollEvents b2 t.sample).reverse ++ s.trace ∧
    s.PollDecided .eraseChip t ∧ s.SameHostSide t ∧ t.pageLatch = s.pageIndex ∧ t.rxbuf = s.rxbuf ∧ t.id = s.id

/-- R122: READ_PAGE of an idle controller: the read frame of the page in PAGE_INDEX, the i-th data byte received in RXBUF[i], then the
poll, decided by its first sample; PAGE_INDEX, whatever it is, is not checked (R131) and not changed; TXBUF and ID are untouched.
ERR_TIMEOUT and the limit of one sample are R158's, without a POLL_LIMIT the model's own (log 14); a continuous poll is the
model's rendering of D7 (log 15). -/
def Obligations.ReadPageCommand : Prop :=
  ∀ s : State, s.ctrlBusy = false → ∃ (hdr : Vector Byte 4) (d : Vector Byte 256) (b : Byte) (t : State),
    exec .readPage s = .next t ∧
    t.trace = (frameEvents ([0x03, hiByte s.pageIndex, loByte s.pageIndex, 0x00] ++ List.replicate 256 s.cfg.dummyByte)
        (hdr.toList ++ d.toList) ++
      s.pollEvents b t.sample).reverse ++ s.trace ∧
    t.rxbuf = d ∧ s.PollDecided .readPage t ∧ s.SameHostSide t ∧ t.pageLatch = s.pageIndex ∧ t.id = s.id

/-- R123: WRITE_PAGE of an idle controller: a write-enable frame, the program frame of the page in PAGE_INDEX with the 256 bytes of TXBUF,
then the poll, decided by its first sample; TXBUF, RXBUF, ID and PAGE_INDEX are untouched. ERR_TIMEOUT and the limit of one sample are
R158's, without a POLL_LIMIT the model's own (log 14); a continuous poll is the model's rendering of D7 (log 15). -/
def Obligations.WritePageCommand : Prop :=
  ∀ s : State, s.ctrlBusy = false → ∃ (b0 b1 : Byte) (ins : Vector Byte 260) (t : State), exec .writePage s = .next t ∧
    t.trace = (frameEvents [0x06] [b0] ++
      frameEvents ([0x02, hiByte s.pageIndex, loByte s.pageIndex, 0x00] ++ s.txbuf.toList) ins.toList ++
      s.pollEvents b1 t.sample).reverse ++ s.trace ∧
    s.PollDecided .writePage t ∧ s.SameHostSide t ∧ t.pageLatch = s.pageIndex ∧ t.rxbuf = s.rxbuf ∧ t.id = s.id

/-- R124, R127: POLL_UNTIL_READY of an idle controller: the poll and nothing else, decided by its first sample. ERR_TIMEOUT and the limit
of one sample are R158's, without a POLL_LIMIT the model's own (log 14); a continuous poll is the model's rendering of D7 (log 15). -/
def Obligations.PollUntilReadyCommand : Prop :=
  ∀ s : State, s.ctrlBusy = false → ∃ (b : Byte) (t : State), exec .pollUntilReady s = .next t ∧
    t.trace = (s.pollEvents b t.sample).reverse ++ s.trace ∧
    s.PollDecided .pollUntilReady t ∧ s.SameHostSide t ∧ t.pageLatch = s.pageIndex ∧ t.rxbuf = s.rxbuf ∧ t.id = s.id

/-- R25, R51: a command asked for while CTRL_BUSY = 1 is ignored: nothing changes, nothing is queued. -/
def Obligations.CommandsWhileBusyAreIgnored : Prop :=
  ∀ (i : Instr) (s : State), i.isCommand = true → s.ctrlBusy = true → exec i s = .next s

/-- R49, R54, R62, R130: on the ready responder IDENTIFY, READ_PAGE of a page of the chip and POLL_UNTIL_READY leave every byte of the
array; WRITE_PAGE of a page of the chip leaves every byte outside that page. All of it is said of the state at the command's first poll
decision, where `exec` stops by the model's choice (log 8); a program or erase still busy there changes the array in later rows, for which
`WrittenPageReadsBack` says what the polled-out command leaves. -/
def Obligations.CommandsKeepTheArray : Prop :=
  ∀ (s : State) (r : Responder), s.ctrlBusy = false → s.readyResponder r → s.memWf = true →
    (∀ t, exec .identify s = .next t → s.SameArray t) ∧
    (∀ t, exec .pollUntilReady s = .next t → s.SameArray t) ∧
    (∀ t, hasPage s.cfg s.pageIndex → exec .readPage s = .next t → s.SameArray t) ∧
    (∀ t, hasPage s.cfg s.pageIndex → exec .writePage s = .next t →
      ∀ a, a < pageAddress s.pageIndex ∨ pageAddress s.pageIndex + 256 ≤ a → t.peek a = s.peek a)

/-- R53, R54, R61, R62, R64, R65: on the ready responder, with the next operation busy for any number `k` of samples (the run's draw,
log 6) that POLL_LIMIT does not cut short, WRITE_PAGE of a page of the chip is polled to its end at sample k + 1, with each byte of the
page old AND TXBUF[i] and every byte outside the page as before; a following READ_PAGE ends with those bytes in RXBUF; ERASE_CHIP is
polled to its end at sample k + 1, with every byte of the array ERASED_BYTE. -/
def Obligations.WrittenPageReadsBack : Prop :=
  ∀ (s : State) (r : Responder) (k : Nat) (ds : List Remaining), s.ctrlBusy = false → s.readyResponder r →
    r.draws = .samples k :: ds → s.cfg.busyMask ≠ 0 → (∀ n, s.cfg.pollLimit = some n → k < n) → s.memWf = true →
    (hasPage s.cfg s.pageIndex → ∃ t u v w : State, exec .writePage s = .next t ∧ u = ticks (pollRest s.cfg.pollFraming k) t ∧
      u.seq = .idle ∧ u.ctrlBusy = false ∧ u.errTimeout = false ∧
      u.trace.length = s.trace.length + 265 + pollEventCount s.cfg.pollFraming (k + 1) ∧
      (∀ i : Fin 256, u.peek (pageAddress s.pageIndex + i.val) =
        some (Memory.read r.mem (pageAddress s.pageIndex + i.val) &&& s.txbuf[i])) ∧
      (∀ a, a < pageAddress s.pageIndex ∨ pageAddress s.pageIndex + 256 ≤ a → u.peek a = s.peek a) ∧
      exec .readPage u = .next v ∧ w = ticks (pollRest s.cfg.pollFraming 0) v ∧ w.seq = .idle ∧ w.ctrlBusy = false ∧
      ∀ i : Fin 256, w.rxbuf[i] = Memory.read r.mem (pageAddress s.pageIndex + i.val) &&& s.txbuf[i]) ∧
    (∃ t u : State, exec .eraseChip s = .next t ∧ u = ticks (pollRest s.cfg.pollFraming k) t ∧
      u.seq = .idle ∧ u.ctrlBusy = false ∧ u.errTimeout = false ∧
      u.trace.length = s.trace.length + 6 + pollEventCount s.cfg.pollFraming (k + 1) ∧
      ∀ a, a < s.cfg.capacity → u.peek a = some s.cfg.erasedByte)

/-! ### The sequencer -/

/-- R20: one row performs exactly one bus event, the `Sel`, `Desel` or transfer its step table gives it (R120 to R125), or, row P4, one
test and no event; an idle controller does nothing. -/
def Obligations.OneRowOneBusEvent : Prop :=
  (∀ (s : State) (c : Command) (r : Row), s.seq = .at c r →
    (tick s).trace = rowEvents s r ++ s.trace ∧ (rowEvents s r).length = if r = .p4 then 0 else 1) ∧
  ∀ s : State, s.seq = .idle → tick s = s

/-- R125 without a POLL_LIMIT, a frame a sample: the five rows P0 to P4 are one status frame and the test of the byte it received: back to
P0 if the masked bit is set, else the end of the command; the registers of the host's commands do not move. -/
def Obligations.PollIteration : Prop :=
  ∀ (s : State) (c : Command), s.seq = .at c .p0 → s.cfg.pollLimit = none → s.cfg.pollFraming = .perSample → ∃ b : Byte,
    (ticks 5 s).trace = (frameEvents [0x05, s.cfg.dummyByte] [b, (ticks 5 s).sample]).reverse ++ s.trace ∧
    (if busyBit s.cfg.busyMask (ticks 5 s).sample then (ticks 5 s).seq = .at c .p0 ∧ (ticks 5 s).ctrlBusy = s.ctrlBusy
      else (ticks 5 s).seq = .idle ∧ (ticks 5 s).ctrlBusy = false) ∧
    s.SameHostSide (ticks 5 s) ∧ (ticks 5 s).rxbuf = s.rxbuf ∧ (ticks 5 s).id = s.id ∧ (ticks 5 s).pageLatch = s.pageLatch

/-- R125, R158 row P4: without a limit as R125; with a limit n the sample is counted, a clear sample ends the command, the n-th busy one
ends it with ERR_TIMEOUT = 1, any other busy one goes back to P0. In a continuous poll (log 15) another sample is row P2, and the command
ends by way of row P3. -/
def Obligations.PollTestRow : Prop :=
  ∀ (s : State) (c : Command), s.seq = .at c .p4 →
    let again : State → State := fun u => { u with seq := .at c (if s.cfg.pollFraming = .perSample then .p0 else .p2) }
    let leave : State → State := fun u =>
      if s.cfg.pollFraming = .perSample then { u with seq := .idle, ctrlBusy := false } else { u with seq := .at c .p3 }
    tick s =
      match s.cfg.pollLimit with
      | none => if busyBit s.cfg.busyMask s.sample then again s else leave s
      | some n =>
        if busyBit s.cfg.busyMask s.sample = false then leave { s with pollCnt := s.pollCnt + 1 }
        else if s.pollCnt + 1 = n then leave { s with pollCnt := s.pollCnt + 1, errTimeout := true }
        else again { s with pollCnt := s.pollCnt + 1 }

/-- R125, R126 (d), R133: an unbounded poll whose samples are any number of busy bytes and then a clear one ends at that one, with one frame
of four events a sample (or, in a continuous poll, log 15, one frame with a byte a sample), the rest of the answers never asked for. -/
def Obligations.PollEndsAtTheFirstClearSample : Prop :=
  ∀ (s : State) (c : Command) (busy : List (Byte × Byte)) (b v : Byte) (rest : List Byte), s.seq = .at c .p0 →
    s.cfg.pollLimit = none → (∀ q ∈ busy, busyBit s.cfg.busyMask q.2 = true) → busyBit s.cfg.busyMask v = false →
    s.dev = .script (match s.cfg.pollFraming with
      | .perSample => busy.flatMap (fun q => [q.1, q.2]) ++ b :: v :: rest
      | .continuous => b :: busy.map (fun q => q.2) ++ v :: rest) →
    let t := ticks (passRows s.cfg.pollFraming + pollRest s.cfg.pollFraming busy.length) s
    t.seq = .idle ∧ t.ctrlBusy = false ∧ t.csN = true ∧ t.sample = v ∧ t.dev = .script rest ∧
      t.trace.length = s.trace.length + pollEventCount s.cfg.pollFraming (busy.length + 1)

/-- R156, R126 (b): an unbounded poll of a device that never clears busy never ends: after any number n of samples, with no host move
pending, every step has been to a next state and CTRL_BUSY = 1. A frame a sample: 5n steps, 4n more events, at row P0. Continuous
(log 15): 2 + 2n steps, 2 + n more events, at row P2. -/
def Obligations.StuckDeviceHangsForever : Prop :=
  ∀ (s : State) (c : Command) (r : Responder) (n : Nat), s.agenda = [] → s.seq = .at c .p0 → s.ctrlBusy = true →
    s.cfg.pollLimit = none → s.cfg.busyMask ≠ 0 → s.dev = .responder r → r.busy = true → r.remaining = .forever →
    (s.cfg.pollFraming = .perSample → ∃ t, Sys2Proof.core.run (5 * n) s = .next t ∧ t.seq = .at c .p0 ∧ t.ctrlBusy = true ∧
      t.trace.length = s.trace.length + 4 * n) ∧
    (s.cfg.pollFraming = .continuous → ∃ t, Sys2Proof.core.run (2 + 2 * n) s = .next t ∧ t.seq = .at c .p2 ∧
      t.ctrlBusy = true ∧ t.trace.length = s.trace.length + 2 + n)

/-- R158: with POLL_LIMIT = n a poll of a device that never clears busy ends after n samples with ERR_TIMEOUT = 1 and CTRL_BUSY = 0, the bus
idle; in a continuous poll (log 15) they are n bytes of one frame. -/
def Obligations.PollLimitGivesUp : Prop :=
  ∀ (s : State) (c : Command) (r : Responder) (n : Nat), s.seq = .at c .p0 → s.pollCnt = 0 →
    s.cfg.pollLimit = some (n + 1) → s.cfg.busyMask ≠ 0 → s.dev = .responder r → r.busy = true → r.remaining = .forever →
    let t := ticks (passRows s.cfg.pollFraming + pollRest s.cfg.pollFraming n) s
    t.seq = .idle ∧ t.ctrlBusy = false ∧ t.csN = true ∧ t.errTimeout = true ∧
      t.trace.length = s.trace.length + pollEventCount s.cfg.pollFraming (n + 1)

/-! ### The host's registers -/

/-- R29: the register map: what each number reads while idle, and that a write moves PAGE_INDEX and TXBUF[i] alone (and starts commands
through CMD); read-only and unassigned numbers take no write, unassigned numbers read 0. The model's choices: the host's data is 16 bits
wide, with zeros above a narrower register (log 11), and CMD and unassigned numbers read 0 while a command runs too (log 12). -/
def Obligations.RegisterMap : Prop :=
  (∀ (s : State) (v : BitVec 16) (b : Byte), s.ctrlBusy = false →
    readValue 0x002 s = s.pageIndex ∧
    readValue 0x001 s =
      (BitVec.ofBool (s.errTimeout && s.cfg.pollLimit.isSome) ++ BitVec.ofBool s.ctrlBusy).setWidth 16 ∧
    (∀ i : Fin 3, readValue (0x004 + i.val) s = s.id[i].setWidth 16) ∧
    (∀ i : Fin 256, readValue (0x100 + i.val) s = s.txbuf[i].setWidth 16 ∧
      readValue (0x200 + i.val) s = s.rxbuf[i].setWidth 16 ∧
      hostWrite (0x100 + i.val) (b.setWidth 16) s = { s with txbuf := s.txbuf.set i b } ∧
      hostWrite (0x200 + i.val) v s = s) ∧
    hostWrite 0x001 v s = s ∧ hostWrite 0x002 v s = { s with pageIndex := v } ∧
    (∀ i : Fin 3, hostWrite (0x004 + i.val) v s = s)) ∧
  ∀ s : State, readValue 0x000 s = 0 ∧
    ∀ (num : Nat) (v : BitVec 16), num = 0x003 ∨ (0x007 ≤ num ∧ num < 0x100) ∨ 0x300 ≤ num →
      readValue num s = 0 ∧ hostWrite num v s = s

/-- R22, R28: CTRL_STATUS has CTRL_BUSY in bit 0, ERR_TIMEOUT in bit 1 where there is a POLL_LIMIT and 0 there where there is none, and 0 in
bits 7:2. -/
def Obligations.ControlStatusBits : Prop :=
  ∀ s : State, s.ctrlStatus.getLsbD 0 = s.ctrlBusy ∧
    s.ctrlStatus.getLsbD 1 = (s.errTimeout && s.cfg.pollLimit.isSome) ∧
    ∀ j, 2 ≤ j → s.ctrlStatus.getLsbD j = false

/-- R25: while CTRL_BUSY = 1 every host write is ignored and a read of CTRL_STATUS returns the true flags; a host write move is that write,
and a host read, at any time, moves nothing of the machine but the value it returns. The model's choices: such a step moves the controller
by nothing else (log 7, 24), and a read of an 8-bit register has 16 bits (log 11). -/
def Obligations.HostAccessWhileBusy : Prop :=
  (∀ (num : Nat) (v : BitVec 16) (s : State), s.ctrlBusy = true → hostWrite num v s = s) ∧
  (∀ s : State, s.ctrlBusy = true → readValue 0x001 s = s.ctrlStatus.setWidth 16) ∧
  (∀ (num : Nat) (v : BitVec 16) (rest : List HostMove) (s : State), s.agenda = .write num v :: rest →
    step s = .next (hostWrite num v { s with agenda := rest })) ∧
  (∀ (num : Nat) (rest : List HostMove) (s : State), s.agenda = .read num :: rest →
    step s = .next { s with agenda := rest, rdata := readValue num s, freeCtr := s.freeCtr + 1 })

/-- R87: a CMD write of one of the 251 reserved codes while idle is ignored: CTRL_BUSY stays 0, no bus event, no register changes. -/
def Obligations.ReservedCommandsAreIgnored : Prop :=
  ((List.range 256).filter fun n => decide (BitVec.ofNat 8 n ∉ [0x02#8, 0x03#8, 0x05#8, 0x9F#8, 0xC7#8])).length = 251 ∧
  ∀ (code : Byte) (s : State) (rest : List HostMove), code ∉ [0x02#8, 0x03#8, 0x05#8, 0x9F#8, 0xC7#8] → s.ctrlBusy = false →
    s.agenda = .write 0x000 (code.setWidth 16) :: rest → step s = .next { s with agenda := rest }

/-! ### Reset -/

/-- R30, R171: the values R30 gives for reset, and the decided parameters of R5; the registers R30 leaves unspecified are not named
here. -/
def Obligations.ResetValues : Prop :=
  State.reset.csN = true ∧ State.reset.sck = false ∧ State.reset.mosi = false ∧ State.reset.ctrlBusy = false ∧
  State.reset.seq = .idle ∧ State.reset.errTimeout = false ∧ State.reset.pollCnt = 0 ∧
  State.reset.cfg.dummyByte = 0x00 ∧ State.reset.cfg.busyMask = 0x01 ∧ State.reset.cfg.pollLimit = none ∧
  State.reset.cfg.identifyPolls = false ∧ State.reset.cfg.pollFraming = .perSample ∧ State.reset.cfg.erasedByte = 0xFF

/-- R170, R173, R174: a reset, whatever SEQ_STEP is, leaves the lines idle, CTRL_BUSY = 0, SEQ_STEP = IDLE and ERR_TIMEOUT = 0, keeps the
configuration and sends nothing. With no frame open the trace and the device are as they were. An open frame is cut: the trace has the
model's mark for it (log 21), a device with supplied answers is as it was, and the responder (log 17) has at most its latch changed where
the frame is, or was about to be, neither a program nor an erase; of a cut erase frame nothing is known. -/
def Obligations.ResetAtAnyTime : Prop :=
  ∀ (s : State) (rest : List HostMove), s.agenda = .reset :: rest → ∃ t, step s = .next t ∧
    t.csN = true ∧ t.sck = false ∧ t.mosi = false ∧ t.ctrlBusy = false ∧ t.seq = .idle ∧ t.errTimeout = false ∧
    t.pollCnt = 0 ∧ t.cfg = s.cfg ∧ t.agenda = rest ∧
    (s.csN = true → t.dev = s.dev ∧ t.trace = s.trace) ∧
    (s.csN = false → t.trace = .cut :: s.trace ∧ (∀ l, s.dev = .script l → t.dev = .script l) ∧
      ∀ r, s.dev = .responder r →
        (r.frame = none → t.dev = .responder r) ∧
        (∀ op args, r.frame = some (op :: args) →
          (op ≠ 0x02 ∧ op ≠ 0xC7 → ∃ w, t.dev = .responder { r with frame := none, wel := w }) ∧
          (op = 0xC7 → t.dev = .script [])) ∧
        (∀ c row, r.frame = some [] → s.seq = .at c row → row = .i1 ∨ row = .e1 ∨ row = .rd1 ∨ row = .w1 ∨ row = .p1 →
          ∃ w, t.dev = .responder { r with frame := none, wel := w }))

/-- U18, V8.4 and log 17 (the model's choice): a reset that cuts a program frame with both page bytes sent leaves every byte outside the
addressed page as it was; the frame is closed. R173 alone leaves the array unspecified then. -/
def Obligations.CutProgramFrameKeepsOtherPages : Prop :=
  ∀ (s : State) (rest : List HostMove) (r : Responder) (a2 a1 : Byte) (more : List Byte) (t : State),
    s.agenda = .reset :: rest → s.csN = false → s.dev = .responder r → r.frame = some (0x02 :: a2 :: a1 :: more) →
    s.memWf = true → hasPage s.cfg (pageOf a2 a1) → step s = .next t →
    t.devInSync = true ∧ ∀ a, a < pageAddress (pageOf a2 a1) ∨ pageAddress (pageOf a2 a1) + 256 ≤ a → t.peek a = s.peek a

/-- R172: an idle controller stays idle until the host writes CMD (or the model's moves `call` and `frame`, log 8 and 9): no other host
access and no step of its own starts anything or puts an event on the bus, and with no host move at all nothing changes. -/
def Obligations.IdleStaysIdle : Prop :=
  (∀ s t : State, s.seq = .idle → s.ctrlBusy = false → step s = .next t → (∀ v rest, s.agenda ≠ .write 0x000 v :: rest) →
    (∀ code rest, s.agenda ≠ .call code :: rest) → (∀ header rest, s.agenda ≠ .frame header :: rest) →
    t.seq = .idle ∧ t.ctrlBusy = false ∧ ((∀ rest, s.agenda ≠ .reset :: rest) → t.trace = s.trace ∧ t.dev = s.dev)) ∧
  ∀ s : State, s.seq = .idle → s.agenda = [] → step s = .next s

/-! ### The whole machine -/

/-- R150, R151, R107: no step faults and no step is refused. -/
def Obligations.EveryStepHasANextState : Prop := ∀ s : State, ∃ t, step s = .next t

/-- When the code a host call carries decodes to an instruction, the step runs exactly it, the host then waiting for CTRL_BUSY = 0
(R90); a code that is reserved runs nothing. -/
def Obligations.StepRunsTheCalledCommand : Prop :=
  ∀ (s : State) (code : Byte) (rest : List HostMove), s.agenda = .call code :: rest →
    (∀ i, decodeCommand code = .ok i → step s = exec i { s with agenda := .wait :: rest }) ∧
    (code ∉ [0x02#8, 0x03#8, 0x05#8, 0x9F#8, 0xC7#8] → step s = .next { s with agenda := .wait :: rest })

/-- Where the host makes no access the step is one row of the running command (R20, R50). The model's choices: a wait while CTRL_BUSY = 1
is one row too, and one that finds CTRL_BUSY = 0 reads CTRL_STATUS, with 16 bits, and is over (log 7, 11). -/
def Obligations.StepRunsOneRow : Prop :=
  ∀ (s : State) (rest : List HostMove),
    (s.agenda = [] → step s = .next (tick s)) ∧
    (s.agenda = .run :: rest → step s = .next (tick { s with agenda := rest })) ∧
    (s.agenda = .wait :: rest → s.ctrlBusy = true → step s = .next (tick s)) ∧
    (s.agenda = .wait :: rest → s.ctrlBusy = false → ∃ t, step s = .next t ∧ t.agenda = rest ∧
      t.rdata = s.ctrlStatus.setWidth 16 ∧ t.trace = s.trace ∧ t.dev = s.dev)

/-- When the bytes of a frame driven on its own decode to an instruction and no command is running, the step runs exactly it (log 9, the
model's own move); while a command runs it is ignored. -/
def Obligations.StepRunsTheDrivenFrame : Prop :=
  ∀ (s : State) (header : List Byte) (rest : List HostMove) (i : Instr), s.agenda = .frame header :: rest →
    decodeFrame header = .ok i →
    (s.ctrlBusy = false → step s = exec i { s with agenda := rest }) ∧
    (s.ctrlBusy = true → step s = .next { s with agenda := rest })

/-- R32 (a) to (d), R24: every step keeps the invariant of the controller: the clock low and CS_N agreeing with the framing at every step
boundary, SEQ_STEP a row of its command's table standing where the bus is, BYTE_CNT at most 259. -/
def Obligations.StepKeepsTheInvariant : Prop :=
  ∀ s t : State, s.Inv → step s = .next t → t.Inv

/-- The state after reset meets the invariant, and its memory is in canonical form. -/
def Obligations.ResetMeetsTheInvariant : Prop :=
  State.reset.Inv ∧ State.reset.memWf = true ∧ State.reset.devInSync = true

/-- Every step keeps the device array in its one canonical form and inside the chip. -/
def Obligations.StepKeepsTheArrayCanonical : Prop :=
  ∀ s t : State, s.memWf = true → step s = .next t → t.memWf = true

/-- R59: the responder has a frame open exactly while CS_N = 0, after every step. -/
def Obligations.StepKeepsTheDeviceInStep : Prop :=
  ∀ s t : State, s.devInSync = true → step s = .next t → t.devInSync = true

/-- R15: no host access, no command and no reset changes the configuration. -/
def Obligations.ConfigurationNeverChanges : Prop := ∀ s t : State, step s = .next t → t.cfg = s.cfg

/-- R32 (e), R17, R18, R30: PAGE_INDEX and TXBUF change only by a host write made while CTRL_BUSY = 0, or by reset. -/
def Obligations.OperandsChangeOnlyByTheHost : Prop :=
  ∀ s t : State, step s = .next t → t.pageIndex ≠ s.pageIndex ∨ t.txbuf ≠ s.txbuf →
    (s.ctrlBusy = false ∧ ∃ num v rest, s.agenda = .write num v :: rest) ∨ ∃ rest, s.agenda = .reset :: rest

/-- R19, R21: RXBUF is written only by a read (row RD5, READ_PAGE, or a READ frame driven on its own) and ID only by an identification
(rows I2 to I4, IDENTIFY, or a JEDEC_ID frame driven on its own), or by reset. -/
def Obligations.ResultsChangeOnlyByTheirCommands : Prop :=
  ∀ s t : State, step s = .next t → (∀ rest, s.agenda ≠ .reset :: rest) →
    (t.rxbuf ≠ s.rxbuf → (∃ c, s.seq = .at c .rd5) ∨ (∃ rest, s.agenda = .call 0x03 :: rest) ∨
      ∃ h rest p, s.agenda = .frame h :: rest ∧ decodeFrame h = .ok (.read p)) ∧
    (t.id ≠ s.id → (∃ c r, s.seq = .at c r ∧ (r = .i2 ∨ r = .i3 ∨ r = .i4)) ∨ (∃ rest, s.agenda = .call 0x9F :: rest) ∨
      ∃ h rest, s.agenda = .frame h :: rest ∧ decodeFrame h = .ok .jedecId)

/-- R88, R112: while the host drives no frame on its own, every frame on the bus opens with one of the six opcodes the controller emits;
write-disable (0x04) is never one of them. -/
def Obligations.OnlySixOpcodesOnTheBus : Prop :=
  (∀ s t : State, s.Inv → s.noBench = true → opcodesEmitted s.trace = true → step s = .next t →
    t.noBench = true ∧ opcodesEmitted t.trace = true) ∧ opWrdi ∉ emittedOpcodes

/-- R23, R127, R158: over all steps but a reset, PAGE_LATCH changes only where a command is accepted, and to PAGE_INDEX; ERR_TIMEOUT changes
only where a command is accepted (without a POLL_LIMIT the model's own, log 14), or to 1 at row P4 where POLL_LIMIT is reached with the
sample busy. A call (log 8) is accepted and runs on to its first test in one step. -/
def Obligations.LatchAndTimeoutChangeOnlyByTheirRules : Prop :=
  ∀ s t : State, step s = .next t → (∀ rest, s.agenda ≠ .reset :: rest) →
    let accepted : Prop := s.ctrlBusy = false ∧
      ((∃ v rest i, s.agenda = .write 0x000 v :: rest ∧ decodeCommand (v.setWidth 8) = .ok i) ∨
        ∃ code rest i, s.agenda = .call code :: rest ∧ decodeCommand code = .ok i)
    (t.pageLatch ≠ s.pageLatch → accepted ∧ t.pageLatch = s.pageIndex) ∧
    (t.errTimeout ≠ s.errTimeout → accepted ∨
      ∃ c, s.seq = .at c .p4 ∧ s.cfg.pollLimit = some (s.pollCnt + 1) ∧ busyBit s.cfg.busyMask s.sample = true ∧
        t.errTimeout = true)

/-- The model's rendering of D7's alternative framing (log 15; `PollTestRow` says what its row P4 does): from P0 three rows open a frame,
send the opcode once and receive a sample; from P2 one row receives another in the same frame; P3 closes it and ends the command. The
registers of the host's commands do not move. -/
def Obligations.ContinuousPollRows : Prop :=
  ∀ (s : State) (c : Command), s.cfg.pollFraming = .continuous →
    (s.seq = .at c .p0 → ∃ b : Byte,
      (ticks 3 s).trace = .x s.cfg.dummyByte (ticks 3 s).sample :: .x 0x05 b :: .sel :: s.trace ∧ (ticks 3 s).csN = false ∧
      (ticks 3 s).seq = .at c .p4 ∧ (ticks 3 s).ctrlBusy = s.ctrlBusy ∧ s.SameHostSide (ticks 3 s) ∧
      (ticks 3 s).rxbuf = s.rxbuf ∧ (ticks 3 s).id = s.id ∧ (ticks 3 s).pageLatch = s.pageLatch) ∧
    (s.seq = .at c .p2 →
      (tick s).trace = .x s.cfg.dummyByte (tick s).sample :: s.trace ∧ (tick s).csN = s.csN ∧ (tick s).seq = .at c .p4 ∧
      (tick s).ctrlBusy = s.ctrlBusy ∧ s.SameHostSide (tick s) ∧ (tick s).rxbuf = s.rxbuf ∧ (tick s).id = s.id ∧
      (tick s).pageLatch = s.pageLatch) ∧
    (s.seq = .at c .p3 →
      (tick s).trace = .desel :: s.trace ∧ (tick s).csN = true ∧ (tick s).seq = .idle ∧ (tick s).ctrlBusy = false ∧
      (tick s).errTimeout = s.errTimeout ∧ s.SameHostSide (tick s) ∧ s.SameResults (tick s) ∧ (tick s).pageLatch = s.pageLatch)
end

