-- ==== Sys2Proof/Laws/Bytes.lean ====
section
/-! SUPPORT. Laws of the bit and byte operations: a byte shifted in bit by bit is the byte, the address bytes name the page. -/

namespace Sys2Proof.Machine

/-- `setBit` changes the one bit it names. -/
theorem getLsbD_setBit (v : Byte) (b : Bool) {i j : Nat} (hi : i < 8) (hj : j < 8) :
    (setBit v j b).getLsbD i = if i = j then b else v.getLsbD i := by
  cases b <;> interval_cases i <;> interval_cases j <;> simp [setBit]

/-- The eight bits of a byte, sampled most significant first into any register, are that byte (R43, R102). -/
theorem setBits_eq (v inp : Byte) :
    bitOrder.foldl (fun acc j => setBit acc j (inp.getLsbD j)) v = inp := by
  apply BitVec.eq_of_getLsbD_eq
  intro i hi
  have h : ∀ (w : Byte) (b : Bool) (j : Nat), j < 8 →
      (setBit w j b).getLsbD i = if i = j then b else w.getLsbD i := fun w b j hj => getLsbD_setBit w b hi hj
  simp only [bitOrder, List.foldl_cons, List.foldl_nil]
  iterate 8 rw [h _ _ _ (by decide)]
  interval_cases i <;> rfl

/-- The eight cycles of a byte: SHI holds the byte received, MOSI the last bit sent (R13), BIT_CNT 0, SCK 0 (R12). -/
theorem shiftBits_eq (inp : Byte) (w : Shifter) :
    shiftBits inp w = { bitCnt := 0, sho := w.sho, shi := inp, sck := false, mosi := w.sho.getLsbD 0 } := by
  have h := setBits_eq w.shi inp
  simp only [bitOrder, List.foldl_cons, List.foldl_nil] at h
  simp only [shiftBits, bitOrder, List.foldl_cons, List.foldl_nil, bitCycle, driveBit, riseBit, fallBit, h]
  rfl

/-- What a byte transfer does to the state at the bit level (R102); nothing but the shifter moves. -/
theorem shiftByte_eq (out inp : Byte) (s : State) :
    shiftByte out inp s =
      { s with sho := out, shi := inp, bitCnt := 0, mosi := out.getLsbD 0, sck := false } := by
  simp only [shiftByte, shiftBits_eq, State.withShifter, State.loaded]

/-- The bytes hi(p) and lo(p) name the page p (R77). -/
theorem pageOf_bytes (p : PageIndex) : pageOf (hiByte p) (loByte p) = p := by
  apply BitVec.eq_of_getLsbD_eq
  intro i hi
  have h8 : (p >>> 8) &&& 0x00FF#16 = p >>> 8 := by
    apply BitVec.eq_of_getLsbD_eq
    intro j hj
    interval_cases j <;> simp
  simp only [pageOf, hiByte, loByte, BitVec.getLsbD_append, BitVec.getLsbD_setWidth, BitVec.getLsbD_and,
    BitVec.getLsbD_ushiftRight]
  interval_cases i <;> simp

/-- The address bytes of a page form the address of its first byte (R77, R130). -/
theorem addressOf_toNat (p : PageIndex) : (addressOf (hiByte p) (loByte p) 0x00).toNat = pageAddress p := by
  have h : hiByte p ++ loByte p = p := pageOf_bytes p
  rw [addressOf, h, BitVec.toNat_append, pageAddress, Nat.shiftLeft_eq]
  simp

end Sys2Proof.Machine
end

