-- ==== Sys2Proof/Laws/Memory.lean ====
section
/-! SUPPORT. Laws of the device array: a read after a write, and that every operation keeps the canonical form and the bounds. -/

namespace Sys2Proof.Machine

/-- A read after a write gives the byte written at that address and the old byte everywhere else. -/
theorem Memory.read_write (m : Memory) (hm : Memory.wf m = true) (a : Nat) (b : Byte) (x : Nat) :
    Memory.read (Memory.write m a b) x = if x = a then b else Memory.read m x := by
  induction m with
  | nil =>
    by_cases hb : b = Memory.unlisted
    · simp [Memory.write, Memory.read, hb]
    · simp [Memory.write, Memory.read, hb]
  | cons c rest ih =>
    obtain ⟨k, v⟩ := c
    simp only [Memory.wf, Bool.and_eq_true, decide_eq_true_eq] at hm
    obtain ⟨⟨hv, hall⟩, hrest⟩ := hm
    have hlow : ∀ y, y ≤ k → Memory.read rest y = Memory.unlisted := by
      intro y hy
      clear ih hrest
      induction rest with
      | nil => rfl
      | cons c' r' ih' =>
        simp only [List.all_cons, Bool.and_eq_true, decide_eq_true_eq] at hall
        simp only [Memory.read]
        rw [if_neg (by omega)]
        exact ih' hall.2
    simp only [Memory.write]
    split
    · rename_i hlt
      split
      · rename_i hb
        simp only [Memory.read]
        by_cases hx : x = a
        · subst hx
          rw [if_neg (by omega), if_pos rfl, hlow x (by omega), hb]
        · rw [if_neg hx]
      · simp only [Memory.read]
    · split
      · rename_i hle heq
        subst heq
        split
        · rename_i hb
          by_cases hx : x = a
          · subst hx
            rw [if_pos rfl, hlow x (by omega), hb]
          · simp only [Memory.read, if_neg hx]
        · simp only [Memory.read]
          split <;> rfl
      · rename_i hle hne
        simp only [Memory.read, ih hrest]
        by_cases hx : x = k
        · rw [if_pos hx, if_pos hx, if_neg (by omega)]
        · rw [if_neg hx, if_neg hx]

/-- A write lists no address but its own and those listed before. -/
theorem Memory.all_write (p : Host.Cell → Bool) (m : Memory) (a : Nat) (b : Byte) (hp : p (a, b) = true)
    (hm : m.all p = true) : (Memory.write m a b).all p = true := by
  induction m with
  | nil => by_cases hb : b = Memory.unlisted <;> simp [Memory.write, hb, hp]
  | cons c rest ih =>
    obtain ⟨k, v⟩ := c
    simp only [List.all_cons, Bool.and_eq_true] at hm
    simp only [Memory.write]
    split
    · split <;> simp [hm, hp]
    · split
      · rename_i heq
        subst heq
        split <;> simp [hm, hp]
      · simp [hm, ih hm.2]

/-- A write keeps the canonical form. -/
theorem Memory.wf_write (m : Memory) (a : Nat) (b : Byte) (hm : Memory.wf m = true) :
    Memory.wf (Memory.write m a b) = true := by
  induction m with
  | nil => by_cases hb : b = Memory.unlisted <;> simp [Memory.write, hb, Memory.wf]
  | cons c rest ih =>
    obtain ⟨k, v⟩ := c
    have hm' := hm
    simp only [Memory.wf, Bool.and_eq_true, decide_eq_true_eq] at hm'
    obtain ⟨⟨hv, hall⟩, hrest⟩ := hm'
    simp only [Memory.write]
    split
    · rename_i hlt
      split
      · exact hm
      · rename_i hb
        have hall' : rest.all (fun c => decide (a < c.1)) = true := by
          simp only [List.all_eq_true, decide_eq_true_eq] at hall ⊢
          intro c hc
          have := hall c hc
          omega
        simp [Memory.wf, hb, hv, hlt, hall, hall', hrest]
    · split
      · split
        · exact hrest
        · rename_i hb
          simp [Memory.wf, hb, hall, hrest]
      · simp only [Memory.wf, Bool.and_eq_true, decide_eq_true_eq]
        refine ⟨⟨hv, Memory.all_write _ _ _ _ ?_ hall⟩, ih hrest⟩
        simp only [decide_eq_true_eq]
        omega

/-- A write inside the array keeps the array's bounds. -/
theorem Memory.within_write {n : Nat} {m : Memory} {a : Nat} (b : Byte) (ha : a < n)
    (hm : Memory.within n m = true) : Memory.within n (Memory.write m a b) = true :=
  Memory.all_write _ _ _ _ (by simpa using ha) hm

/-- A program keeps the canonical form. -/
theorem Memory.wf_program (m : Memory) (a : Nat) (d : List Byte) (hm : Memory.wf m = true) :
    Memory.wf (Memory.program m a d) = true := by
  induction d generalizing m a with
  | nil => exact hm
  | cons x xs ih => exact ih _ _ (Memory.wf_write _ _ _ hm)

/-- A program inside the array keeps the array's bounds. -/
theorem Memory.within_program {n : Nat} (m : Memory) (a : Nat) (d : List Byte) (ha : a + d.length ≤ n)
    (hm : Memory.within n m = true) : Memory.within n (Memory.program m a d) = true := by
  induction d generalizing m a with
  | nil => exact hm
  | cons x xs ih =>
    simp only [List.length_cons] at ha
    exact ih _ _ (by omega) (Memory.within_write _ (by omega) hm)

/-- A read outside the programmed bytes gives the old byte (R62). -/
theorem Memory.read_program_outside (m : Memory) (a : Nat) (d : List Byte) (hm : Memory.wf m = true) (x : Nat)
    (hx : x < a ∨ a + d.length ≤ x) : Memory.read (Memory.program m a d) x = Memory.read m x := by
  induction d generalizing m a with
  | nil => rfl
  | cons y ys ih =>
    simp only [List.length_cons] at hx
    rw [Memory.program, ih _ _ (Memory.wf_write _ _ _ hm) (by omega), Memory.read_write _ hm, if_neg (by omega)]

/-- A read of the k-th programmed byte gives the old byte AND the data byte (R62). -/
theorem Memory.read_program_inside (m : Memory) (a : Nat) (d : List Byte) (hm : Memory.wf m = true) (k : Nat)
    (hk : k < d.length) : Memory.read (Memory.program m a d) (a + k) = Memory.read m (a + k) &&& d[k] := by
  induction d generalizing m a k with
  | nil => simp at hk
  | cons y ys ih =>
    cases k with
    | zero =>
      rw [Memory.program, Memory.read_program_outside _ _ _ (Memory.wf_write _ _ _ hm) _ (by omega),
        Memory.read_write _ hm]
      simp
    | succ k =>
      simp only [List.length_cons] at hk
      have h := ih _ (a + 1) (Memory.wf_write m a (Memory.read m a &&& y) hm) k (by omega)
      rw [show a + (k + 1) = a + 1 + k by omega, Memory.program, h, Memory.read_write _ hm, if_neg (by omega)]
      simp

/-- A store keeps the canonical form. -/
theorem Memory.wf_store (m : Memory) (a : Nat) (d : List Byte) (hm : Memory.wf m = true) :
    Memory.wf (Memory.store m a d) = true := by
  induction d generalizing m a with
  | nil => exact hm
  | cons x xs ih => exact ih _ _ (Memory.wf_write _ _ _ hm)

/-- A store inside the array keeps the array's bounds. -/
theorem Memory.within_store {n : Nat} (m : Memory) (a : Nat) (d : List Byte) (ha : a + d.length ≤ n)
    (hm : Memory.within n m = true) : Memory.within n (Memory.store m a d) = true := by
  induction d generalizing m a with
  | nil => exact hm
  | cons x xs ih =>
    simp only [List.length_cons] at ha
    exact ih _ _ (by omega) (Memory.within_write _ (by omega) hm)

/-- A read outside the stored bytes gives the old byte. -/
theorem Memory.read_store_outside (m : Memory) (a : Nat) (d : List Byte) (hm : Memory.wf m = true) (x : Nat)
    (hx : x < a ∨ a + d.length ≤ x) : Memory.read (Memory.store m a d) x = Memory.read m x := by
  induction d generalizing m a with
  | nil => rfl
  | cons y ys ih =>
    simp only [List.length_cons] at hx
    rw [Memory.store, ih _ _ (Memory.wf_write _ _ _ hm) (by omega), Memory.read_write _ hm, if_neg (by omega)]

/-- Rising addresses with one byte that is not the unlisted one are in canonical form. -/
theorem Memory.wf_ascending (b : Byte) (hb : b ≠ Memory.unlisted) (l : List Nat) (hl : l.Pairwise (· < ·)) :
    Memory.wf (l.map fun a => (a, b)) = true := by
  induction l with
  | nil => rfl
  | cons a as ih =>
    rw [List.pairwise_cons] at hl
    simp only [List.map_cons, Memory.wf, Bool.and_eq_true, decide_eq_true_eq, List.all_eq_true, List.mem_map]
    refine ⟨⟨hb, ?_⟩, ih hl.2⟩
    rintro c ⟨x, hx, rfl⟩
    exact hl.1 x hx

/-- A filled array is in canonical form. -/
theorem Memory.wf_filled (n : Nat) (b : Byte) : Memory.wf (Memory.filled n b) = true := by
  unfold Memory.filled
  split
  · rfl
  · rename_i hb
    exact Memory.wf_ascending b hb _ List.pairwise_lt_range

/-- A filled array is inside its bounds. -/
theorem Memory.within_filled (n : Nat) (b : Byte) : Memory.within n (Memory.filled n b) = true := by
  unfold Memory.filled Memory.within
  split
  · rfl
  · simp only [List.all_map, List.all_eq_true, List.mem_range, Function.comp, decide_eq_true_eq]
    exact fun x hx => hx

/-- A list of addresses with one byte reads as that byte at the addresses it lists. -/
theorem Memory.read_const (b : Byte) (l : List Nat) (a : Nat) (ha : a ∈ l) :
    Memory.read (l.map fun x => (x, b)) a = b := by
  induction l with
  | nil => simp at ha
  | cons x xs ih =>
    simp only [List.map_cons, Memory.read]
    split
    · rfl
    · rename_i h
      exact ih (by simpa [h] using ha)

/-- Every byte of a filled array reads as the fill (R64). -/
theorem Memory.read_filled (n : Nat) (b : Byte) (a : Nat) (ha : a < n) :
    Memory.read (Memory.filled n b) a = b := by
  unfold Memory.filled
  split
  · rename_i h
    exact h.symm
  · exact Memory.read_const b _ a (by simpa using ha)

/-- The memory at reset is in canonical form. -/
theorem Memory.wf_start : Memory.wf Responder.start.mem = true := rfl

end Sys2Proof.Machine
end

