-- ==== Sys2Proof/Laws/Device.lean ====
section
/-! SUPPORT. What the device's side of a bus event keeps: the array's canonical form, and being in step with CS_N. -/

namespace Sys2Proof.Machine

theorem Device.arrayWf_unknown (c : Config) : Device.unknown.arrayWf c = true := rfl

/-- The array invariant depends on the array and the pending effect alone. -/
theorem Responder.arrayWf_congr {c : Config} {r r' : Responder} (hm : r'.mem = r.mem) (hp : r'.pending = r.pending)
    (h : (Device.responder r).arrayWf c = true) : (Device.responder r').arrayWf c = true := by
  simp only [Device.arrayWf, hm, hp] at *
  exact h

theorem Responder.arrayWf_complete {c : Config} {r : Responder} (h : (Device.responder r).arrayWf c = true) :
    (Device.responder (r.complete c)).arrayWf c = true := by
  unfold Device.arrayWf at h ⊢
  rw [Bool.and_eq_true, Bool.and_eq_true] at h ⊢
  obtain ⟨⟨hwf, hin⟩, hfit⟩ := h
  unfold Responder.complete
  rcases hp : r.pending with _ | (⟨a, d⟩ | _)
  · exact ⟨⟨hwf, hin⟩, rfl⟩
  · rw [hp] at hfit
    exact ⟨⟨Memory.wf_program _ _ _ hwf, Memory.within_program _ _ _ (by simpa [Pending.fits] using hfit) hin⟩, rfl⟩
  · exact ⟨⟨Memory.wf_filled _ _, Memory.within_filled _ _⟩, rfl⟩

theorem Responder.arrayWf_settle {c : Config} {r : Responder} (h : (Device.responder r).arrayWf c = true) :
    (Device.responder (r.settle c)).arrayWf c = true := by
  unfold Responder.settle
  split
  · exact Responder.arrayWf_complete h
  · exact h

theorem Responder.arrayWf_status {c : Config} {r : Responder} (f : Byte) (h : (Device.responder r).arrayWf c = true) :
    (Device.responder (r.status c f).2).arrayWf c = true := by
  simp only [Responder.status]
  split
  · exact Responder.arrayWf_congr (r := r.settle c) rfl rfl (Responder.arrayWf_settle h)
  · exact Responder.arrayWf_settle h

/-- A byte transfer keeps the array invariant. -/
theorem Device.arrayWf_answer {c : Config} {d : Device} (f o : Byte) (h : d.arrayWf c = true) :
    (d.answer c f o).2.arrayWf c = true := by
  cases d with
  | script l => cases l <;> rfl
  | responder r =>
    have hk : ∀ fr, (Device.responder { r with frame := fr }).arrayWf c = true := fun fr =>
      Responder.arrayWf_congr (r := r) rfl rfl h
    simp only [Device.answer]
    split
    · exact h
    · unfold Responder.answerIn
      repeat' split
      all_goals first
        | exact hk _
        | exact Responder.arrayWf_status f (hk _)
        | skip
      unfold Responder.readData
      split
      · exact hk _
      · rfl

/-- `Sel` keeps the array invariant. -/
theorem Device.arrayWf_opened {c : Config} {d : Device} (h : d.arrayWf c = true) : d.opened.arrayWf c = true := by
  cases d with
  | script l => rfl
  | responder r => exact Responder.arrayWf_congr (r := r) rfl rfl h

theorem Responder.arrayWf_begin {c : Config} {r : Responder} {p : Pending} (f : Option Nat)
    (hp : p.fits c.capacity = true) (h : (Device.responder r).arrayWf c = true) :
    (Device.responder (r.begin f p)).arrayWf c = true := by
  unfold Device.arrayWf at h ⊢
  rw [Bool.and_eq_true] at h ⊢
  exact ⟨h.1, hp⟩

/-- `Desel` keeps the array invariant. -/
theorem Device.arrayWf_closed {c : Config} {d : Device} (f : Option Nat) (h : d.arrayWf c = true) :
    (d.closed c f).arrayWf c = true := by
  cases d with
  | script l => rfl
  | responder r =>
    have hk : ∀ (fr : Option (List Byte)) (w : Bool),
        (Device.responder { r with frame := fr, wel := w }).arrayWf c = true := fun fr w =>
      Responder.arrayWf_congr (r := r) rfl rfl h
    have h0 : (Device.responder { r with frame := none }).arrayWf c = true := hk none r.wel
    simp only [Device.closed]
    split
    · exact h
    · exact h0
    · unfold Responder.closeFrame Responder.closeProgram
      repeat' split
      all_goals first
        | exact h0
        | exact hk none _
        | exact Responder.arrayWf_begin f rfl h0
        | exact Responder.arrayWf_begin f (by simpa [Pending.fits]) h0
        | rfl

/-- A page of the chip lies inside its array. -/
theorem pageAddress_fits {c : Config} {p : PageIndex} (h : pageAddress p < c.capacity) :
    pageAddress p + 256 ≤ c.capacity := by
  unfold pageAddress Config.capacity at *
  omega

theorem freeBytes_length (len n : Nat) : (freeBytes len n).length = len := by
  simp only [freeBytes, List.length_map, List.length_range]

/-- A cut program frame keeps the array invariant where the bytes it leaves open lie inside the chip. -/
theorem Responder.arrayWf_cutProgram {c : Config} {r : Responder} (n base len : Nat) (hfit : base + len ≤ c.capacity)
    (h : (Device.responder r).arrayWf c = true) : (Device.responder (r.cutProgram n base len)).arrayWf c = true := by
  rw [← freeBytes_length len (n + 2)] at hfit
  simp only [Device.arrayWf, Bool.and_eq_true] at h
  simp only [Device.arrayWf, Responder.cutProgram, Responder.cutLatch, Bool.and_eq_true]
  exact ⟨⟨Memory.wf_store _ _ _ h.1.1, Memory.within_store _ _ _ hfit h.1.2⟩, h.2⟩

/-- A cut frame keeps the array invariant. -/
theorem Responder.arrayWf_cutFrame {c : Config} {r : Responder} (n : Nat) (op : Byte) (args : List Byte)
    (h : (Device.responder r).arrayWf c = true) : (r.cutFrame c n op args).arrayWf c = true := by
  have hl : (Device.responder (r.cutLatch n)).arrayWf c = true := Responder.arrayWf_congr (r := r) rfl rfl h
  unfold Responder.cutFrame
  split
  · split
    · split
      · exact Responder.arrayWf_cutProgram n _ _ (pageAddress_fits (by assumption)) h
      · exact Device.arrayWf_unknown c
    · exact Responder.arrayWf_cutProgram n 0 _ (Nat.le_of_eq (Nat.zero_add _)) h
  · split
    · exact Device.arrayWf_unknown c
    · exact hl

/-- A reset that cuts a frame keeps the array invariant. -/
theorem Device.arrayWf_cut {c : Config} {d : Device} (n : Nat) (next : Option Byte) (h : d.arrayWf c = true) :
    (d.cut c n next).arrayWf c = true := by
  cases d with
  | script l => rfl
  | responder r =>
    simp only [Device.cut]
    split
    · exact h
    · exact Responder.arrayWf_cutFrame n _ _ h
    · exact Responder.arrayWf_cutFrame n _ _ h
    · exact Device.arrayWf_unknown c

/-! ### In step with CS_N -/

theorem Device.inSync_opened (d : Device) : d.opened.inSync false = true := by
  cases d <;> rfl

theorem Responder.frame_settle (c : Config) (r : Responder) : (r.settle c).frame = r.frame := by
  unfold Responder.settle
  split <;> rfl

theorem Responder.frame_status (c : Config) (f : Byte) (r : Responder) : (r.status c f).2.frame = r.frame := by
  simp only [Responder.status]
  split <;> exact Responder.frame_settle c r

/-- A byte transfer leaves a frame open where one was. -/
theorem Device.inSync_answer {c : Config} {d : Device} {cs : Bool} (f o : Byte) (h : d.inSync cs = true) :
    (d.answer c f o).2.inSync cs = true := by
  cases d with
  | script l => cases l <;> rfl
  | responder r =>
    simp only [Device.answer]
    split
    · exact h
    · rename_i got hg
      have hcs : cs = false := by
        simp only [Device.inSync, hg, Option.isSome_some, beq_iff_eq] at h
        cases cs <;> simp_all
      subst hcs
      unfold Responder.answerIn
      repeat' split
      all_goals first
        | rfl
        | (simp only [Device.inSync, Responder.frame_status]; rfl)
        | skip
      unfold Responder.readData
      split <;> rfl

/-- After `Desel` the responder has no frame open. -/
theorem Device.inSync_closed (c : Config) (d : Device) (f : Option Nat) : (d.closed c f).inSync true = true := by
  cases d with
  | script l => rfl
  | responder r =>
    simp only [Device.closed]
    split
    · rename_i h
      simp [Device.inSync, h]
    · rfl
    · unfold Responder.closeFrame Responder.closeProgram Responder.begin
      repeat' split
      all_goals rfl

/-- After a reset the responder has no frame open. -/
theorem Device.inSync_cut (c : Config) (d : Device) (n : Nat) (next : Option Byte) : (d.cut c n next).inSync true = true := by
  cases d with
  | script l => rfl
  | responder r =>
    simp only [Device.cut]
    split
    · rename_i h
      simp [Device.inSync, h]
    · unfold Responder.cutFrame
      repeat' split
      all_goals rfl
    · unfold Responder.cutFrame
      repeat' split
      all_goals rfl
    · rfl

end Sys2Proof.Machine
end

