-- ==== Sys2Proof/Laws/State.lean ====
section
/-! SUPPORT. One lemma per field per operation: what each shared operation of the machine leaves in each field of State. -/

namespace Sys2Proof.Machine

variable (s : State)

/-! ### sel -/

@[simp] theorem sel_cfg : (sel s).cfg = s.cfg := rfl
@[simp] theorem sel_csN : (sel s).csN = false := rfl
@[simp] theorem sel_sck : (sel s).sck = s.sck := rfl
@[simp] theorem sel_mosi : (sel s).mosi = s.mosi := rfl
@[simp] theorem sel_pageIndex : (sel s).pageIndex = s.pageIndex := rfl
@[simp] theorem sel_txbuf : (sel s).txbuf = s.txbuf := rfl
@[simp] theorem sel_rxbuf : (sel s).rxbuf = s.rxbuf := rfl
@[simp] theorem sel_id : (sel s).id = s.id := rfl
@[simp] theorem sel_ctrlBusy : (sel s).ctrlBusy = s.ctrlBusy := rfl
@[simp] theorem sel_errTimeout : (sel s).errTimeout = s.errTimeout := rfl
@[simp] theorem sel_pollCnt : (sel s).pollCnt = s.pollCnt := rfl
@[simp] theorem sel_seq : (sel s).seq = s.seq := rfl
@[simp] theorem sel_pageLatch : (sel s).pageLatch = s.pageLatch := rfl
@[simp] theorem sel_byteCnt : (sel s).byteCnt = s.byteCnt := rfl
@[simp] theorem sel_bitCnt : (sel s).bitCnt = s.bitCnt := rfl
@[simp] theorem sel_sho : (sel s).sho = s.sho := rfl
@[simp] theorem sel_shi : (sel s).shi = s.shi := rfl
@[simp] theorem sel_sample : (sel s).sample = s.sample := rfl
@[simp] theorem sel_dev : (sel s).dev = s.dev.opened := rfl
@[simp] theorem sel_agenda : (sel s).agenda = s.agenda := rfl
@[simp] theorem sel_rdata : (sel s).rdata = s.rdata := rfl
@[simp] theorem sel_trace : (sel s).trace = .sel :: s.trace := rfl
@[simp] theorem sel_freeCtr : (sel s).freeCtr = s.freeCtr := rfl

/-! ### desel -/

@[simp] theorem desel_cfg : (desel s).cfg = s.cfg := rfl
@[simp] theorem desel_csN : (desel s).csN = true := rfl
@[simp] theorem desel_sck : (desel s).sck = s.sck := rfl
@[simp] theorem desel_mosi : (desel s).mosi = s.mosi := rfl
@[simp] theorem desel_pageIndex : (desel s).pageIndex = s.pageIndex := rfl
@[simp] theorem desel_txbuf : (desel s).txbuf = s.txbuf := rfl
@[simp] theorem desel_rxbuf : (desel s).rxbuf = s.rxbuf := rfl
@[simp] theorem desel_id : (desel s).id = s.id := rfl
@[simp] theorem desel_ctrlBusy : (desel s).ctrlBusy = s.ctrlBusy := rfl
@[simp] theorem desel_errTimeout : (desel s).errTimeout = s.errTimeout := rfl
@[simp] theorem desel_pollCnt : (desel s).pollCnt = s.pollCnt := rfl
@[simp] theorem desel_seq : (desel s).seq = s.seq := rfl
@[simp] theorem desel_pageLatch : (desel s).pageLatch = s.pageLatch := rfl
@[simp] theorem desel_byteCnt : (desel s).byteCnt = s.byteCnt := rfl
@[simp] theorem desel_bitCnt : (desel s).bitCnt = s.bitCnt := rfl
@[simp] theorem desel_sho : (desel s).sho = s.sho := rfl
@[simp] theorem desel_shi : (desel s).shi = s.shi := rfl
@[simp] theorem desel_sample : (desel s).sample = s.sample := rfl
@[simp] theorem desel_dev : (desel s).dev = s.dev.closed s.cfg (Config.freeBusy s.freeCtr) := rfl
@[simp] theorem desel_agenda : (desel s).agenda = s.agenda := rfl
@[simp] theorem desel_rdata : (desel s).rdata = s.rdata := rfl
@[simp] theorem desel_trace : (desel s).trace = .desel :: s.trace := rfl
@[simp] theorem desel_freeCtr : (desel s).freeCtr = s.freeCtr + 1 := rfl

/-! ### xByte -/

@[simp] theorem xByte_cfg (out : Byte) : (xByte out s).cfg = s.cfg := by
  simp only [xByte, shiftByte_eq, State.answer]
@[simp] theorem xByte_csN (out : Byte) : (xByte out s).csN = s.csN := by
  simp only [xByte, shiftByte_eq, State.answer]
@[simp] theorem xByte_sck (out : Byte) : (xByte out s).sck = false := by
  simp only [xByte, shiftByte_eq, State.answer]
@[simp] theorem xByte_mosi (out : Byte) : (xByte out s).mosi = out.getLsbD 0 := by
  simp only [xByte, shiftByte_eq, State.answer]
@[simp] theorem xByte_pageIndex (out : Byte) : (xByte out s).pageIndex = s.pageIndex := by
  simp only [xByte, shiftByte_eq, State.answer]
@[simp] theorem xByte_txbuf (out : Byte) : (xByte out s).txbuf = s.txbuf := by
  simp only [xByte, shiftByte_eq, State.answer]
@[simp] theorem xByte_rxbuf (out : Byte) : (xByte out s).rxbuf = s.rxbuf := by
  simp only [xByte, shiftByte_eq, State.answer]
@[simp] theorem xByte_id (out : Byte) : (xByte out s).id = s.id := by
  simp only [xByte, shiftByte_eq, State.answer]
@[simp] theorem xByte_ctrlBusy (out : Byte) : (xByte out s).ctrlBusy = s.ctrlBusy := by
  simp only [xByte, shiftByte_eq, State.answer]
@[simp] theorem xByte_errTimeout (out : Byte) : (xByte out s).errTimeout = s.errTimeout := by
  simp only [xByte, shiftByte_eq, State.answer]
@[simp] theorem xByte_pollCnt (out : Byte) : (xByte out s).pollCnt = s.pollCnt := by
  simp only [xByte, shiftByte_eq, State.answer]
@[simp] theorem xByte_seq (out : Byte) : (xByte out s).seq = s.seq := by
  simp only [xByte, shiftByte_eq, State.answer]
@[simp] theorem xByte_pageLatch (out : Byte) : (xByte out s).pageLatch = s.pageLatch := by
  simp only [xByte, shiftByte_eq, State.answer]
@[simp] theorem xByte_byteCnt (out : Byte) : (xByte out s).byteCnt = s.byteCnt := by
  simp only [xByte, shiftByte_eq, State.answer]
@[simp] theorem xByte_bitCnt (out : Byte) : (xByte out s).bitCnt = 0 := by
  simp only [xByte, shiftByte_eq, State.answer]
@[simp] theorem xByte_sho (out : Byte) : (xByte out s).sho = out := by
  simp only [xByte, shiftByte_eq, State.answer]
@[simp] theorem xByte_shi (out : Byte) : (xByte out s).shi = (s.answer out).1 := by
  simp only [xByte, shiftByte_eq, State.answer]
@[simp] theorem xByte_sample (out : Byte) : (xByte out s).sample = s.sample := by
  simp only [xByte, shiftByte_eq, State.answer]
@[simp] theorem xByte_dev (out : Byte) : (xByte out s).dev = (s.answer out).2 := by
  simp only [xByte, shiftByte_eq, State.answer]
@[simp] theorem xByte_agenda (out : Byte) : (xByte out s).agenda = s.agenda := by
  simp only [xByte, shiftByte_eq, State.answer]
@[simp] theorem xByte_rdata (out : Byte) : (xByte out s).rdata = s.rdata := by
  simp only [xByte, shiftByte_eq, State.answer]
@[simp] theorem xByte_trace (out : Byte) : (xByte out s).trace = .x out (s.answer out).1 :: s.trace := by
  simp only [xByte, shiftByte_eq, State.answer]
@[simp] theorem xByte_freeCtr (out : Byte) : (xByte out s).freeCtr = s.freeCtr + 1 := by
  simp only [xByte, shiftByte_eq, State.answer]

/-! ### xOpcode -/

@[simp] theorem xOpcode_cfg (op : Byte) : (xOpcode op s).cfg = s.cfg := by
  simp only [xOpcode, xByte, shiftByte_eq, State.answer]
@[simp] theorem xOpcode_csN (op : Byte) : (xOpcode op s).csN = s.csN := by
  simp only [xOpcode, xByte, shiftByte_eq, State.answer]
@[simp] theorem xOpcode_sck (op : Byte) : (xOpcode op s).sck = false := by
  simp only [xOpcode, xByte, shiftByte_eq, State.answer]
@[simp] theorem xOpcode_mosi (op : Byte) : (xOpcode op s).mosi = op.getLsbD 0 := by
  simp only [xOpcode, xByte, shiftByte_eq, State.answer]
@[simp] theorem xOpcode_pageIndex (op : Byte) : (xOpcode op s).pageIndex = s.pageIndex := by
  simp only [xOpcode, xByte, shiftByte_eq, State.answer]
@[simp] theorem xOpcode_txbuf (op : Byte) : (xOpcode op s).txbuf = s.txbuf := by
  simp only [xOpcode, xByte, shiftByte_eq, State.answer]
@[simp] theorem xOpcode_rxbuf (op : Byte) : (xOpcode op s).rxbuf = s.rxbuf := by
  simp only [xOpcode, xByte, shiftByte_eq, State.answer]
@[simp] theorem xOpcode_id (op : Byte) : (xOpcode op s).id = s.id := by
  simp only [xOpcode, xByte, shiftByte_eq, State.answer]
@[simp] theorem xOpcode_ctrlBusy (op : Byte) : (xOpcode op s).ctrlBusy = s.ctrlBusy := by
  simp only [xOpcode, xByte, shiftByte_eq, State.answer]
@[simp] theorem xOpcode_errTimeout (op : Byte) : (xOpcode op s).errTimeout = s.errTimeout := by
  simp only [xOpcode, xByte, shiftByte_eq, State.answer]
@[simp] theorem xOpcode_pollCnt (op : Byte) : (xOpcode op s).pollCnt = s.pollCnt := by
  simp only [xOpcode, xByte, shiftByte_eq, State.answer]
@[simp] theorem xOpcode_seq (op : Byte) : (xOpcode op s).seq = s.seq := by
  simp only [xOpcode, xByte, shiftByte_eq, State.answer]
@[simp] theorem xOpcode_pageLatch (op : Byte) : (xOpcode op s).pageLatch = s.pageLatch := by
  simp only [xOpcode, xByte, shiftByte_eq, State.answer]
@[simp] theorem xOpcode_byteCnt (op : Byte) : (xOpcode op s).byteCnt = 0 := by
  simp only [xOpcode, xByte, shiftByte_eq, State.answer]
@[simp] theorem xOpcode_bitCnt (op : Byte) : (xOpcode op s).bitCnt = 0 := by
  simp only [xOpcode, xByte, shiftByte_eq, State.answer]
@[simp] theorem xOpcode_sho (op : Byte) : (xOpcode op s).sho = op := by
  simp only [xOpcode, xByte, shiftByte_eq, State.answer]
@[simp] theorem xOpcode_shi (op : Byte) : (xOpcode op s).shi = (s.answer op).1 := by
  simp only [xOpcode, xByte, shiftByte_eq, State.answer]
@[simp] theorem xOpcode_sample (op : Byte) : (xOpcode op s).sample = s.sample := by
  simp only [xOpcode, xByte, shiftByte_eq, State.answer]
@[simp] theorem xOpcode_dev (op : Byte) : (xOpcode op s).dev = (s.answer op).2 := by
  simp only [xOpcode, xByte, shiftByte_eq, State.answer]
@[simp] theorem xOpcode_agenda (op : Byte) : (xOpcode op s).agenda = s.agenda := by
  simp only [xOpcode, xByte, shiftByte_eq, State.answer]
@[simp] theorem xOpcode_rdata (op : Byte) : (xOpcode op s).rdata = s.rdata := by
  simp only [xOpcode, xByte, shiftByte_eq, State.answer]
@[simp] theorem xOpcode_trace (op : Byte) : (xOpcode op s).trace = .x op (s.answer op).1 :: s.trace := by
  simp only [xOpcode, xByte, shiftByte_eq, State.answer]
@[simp] theorem xOpcode_freeCtr (op : Byte) : (xOpcode op s).freeCtr = s.freeCtr + 1 := by
  simp only [xOpcode, xByte, shiftByte_eq, State.answer]

/-! ### xNext -/

@[simp] theorem xNext_cfg (out : Byte) : (xNext out s).cfg = s.cfg := by
  simp only [xNext, xByte, shiftByte_eq, State.answer]
@[simp] theorem xNext_csN (out : Byte) : (xNext out s).csN = s.csN := by
  simp only [xNext, xByte, shiftByte_eq, State.answer]
@[simp] theorem xNext_sck (out : Byte) : (xNext out s).sck = false := by
  simp only [xNext, xByte, shiftByte_eq, State.answer]
@[simp] theorem xNext_mosi (out : Byte) : (xNext out s).mosi = out.getLsbD 0 := by
  simp only [xNext, xByte, shiftByte_eq, State.answer]
@[simp] theorem xNext_pageIndex (out : Byte) : (xNext out s).pageIndex = s.pageIndex := by
  simp only [xNext, xByte, shiftByte_eq, State.answer]
@[simp] theorem xNext_txbuf (out : Byte) : (xNext out s).txbuf = s.txbuf := by
  simp only [xNext, xByte, shiftByte_eq, State.answer]
@[simp] theorem xNext_rxbuf (out : Byte) : (xNext out s).rxbuf = s.rxbuf := by
  simp only [xNext, xByte, shiftByte_eq, State.answer]
@[simp] theorem xNext_id (out : Byte) : (xNext out s).id = s.id := by
  simp only [xNext, xByte, shiftByte_eq, State.answer]
@[simp] theorem xNext_ctrlBusy (out : Byte) : (xNext out s).ctrlBusy = s.ctrlBusy := by
  simp only [xNext, xByte, shiftByte_eq, State.answer]
@[simp] theorem xNext_errTimeout (out : Byte) : (xNext out s).errTimeout = s.errTimeout := by
  simp only [xNext, xByte, shiftByte_eq, State.answer]
@[simp] theorem xNext_pollCnt (out : Byte) : (xNext out s).pollCnt = s.pollCnt := by
  simp only [xNext, xByte, shiftByte_eq, State.answer]
@[simp] theorem xNext_seq (out : Byte) : (xNext out s).seq = s.seq := by
  simp only [xNext, xByte, shiftByte_eq, State.answer]
@[simp] theorem xNext_pageLatch (out : Byte) : (xNext out s).pageLatch = s.pageLatch := by
  simp only [xNext, xByte, shiftByte_eq, State.answer]
@[simp] theorem xNext_byteCnt (out : Byte) : (xNext out s).byteCnt = s.byteCnt + 1 := by
  simp only [xNext, xByte, shiftByte_eq, State.answer]
@[simp] theorem xNext_bitCnt (out : Byte) : (xNext out s).bitCnt = 0 := by
  simp only [xNext, xByte, shiftByte_eq, State.answer]
@[simp] theorem xNext_sho (out : Byte) : (xNext out s).sho = out := by
  simp only [xNext, xByte, shiftByte_eq, State.answer]
@[simp] theorem xNext_shi (out : Byte) : (xNext out s).shi = (s.answer out).1 := by
  simp only [xNext, xByte, shiftByte_eq, State.answer]
@[simp] theorem xNext_sample (out : Byte) : (xNext out s).sample = s.sample := by
  simp only [xNext, xByte, shiftByte_eq, State.answer]
@[simp] theorem xNext_dev (out : Byte) : (xNext out s).dev = (s.answer out).2 := by
  simp only [xNext, xByte, shiftByte_eq, State.answer]
@[simp] theorem xNext_agenda (out : Byte) : (xNext out s).agenda = s.agenda := by
  simp only [xNext, xByte, shiftByte_eq, State.answer]
@[simp] theorem xNext_rdata (out : Byte) : (xNext out s).rdata = s.rdata := by
  simp only [xNext, xByte, shiftByte_eq, State.answer]
@[simp] theorem xNext_trace (out : Byte) : (xNext out s).trace = .x out (s.answer out).1 :: s.trace := by
  simp only [xNext, xByte, shiftByte_eq, State.answer]
@[simp] theorem xNext_freeCtr (out : Byte) : (xNext out s).freeCtr = s.freeCtr + 1 := by
  simp only [xNext, xByte, shiftByte_eq, State.answer]

/-! ### xFill -/

@[simp] theorem xFill_cfg : (xFill s).cfg = s.cfg := by
  simp only [xFill, xNext, xByte, shiftByte_eq, State.answer]
@[simp] theorem xFill_csN : (xFill s).csN = s.csN := by
  simp only [xFill, xNext, xByte, shiftByte_eq, State.answer]
@[simp] theorem xFill_sck : (xFill s).sck = false := by
  simp only [xFill, xNext, xByte, shiftByte_eq, State.answer]
@[simp] theorem xFill_mosi : (xFill s).mosi = s.cfg.dummyByte.getLsbD 0 := by
  simp only [xFill, xNext, xByte, shiftByte_eq, State.answer]
@[simp] theorem xFill_pageIndex : (xFill s).pageIndex = s.pageIndex := by
  simp only [xFill, xNext, xByte, shiftByte_eq, State.answer]
@[simp] theorem xFill_txbuf : (xFill s).txbuf = s.txbuf := by
  simp only [xFill, xNext, xByte, shiftByte_eq, State.answer]
@[simp] theorem xFill_rxbuf : (xFill s).rxbuf = s.rxbuf := by
  simp only [xFill, xNext, xByte, shiftByte_eq, State.answer]
@[simp] theorem xFill_id : (xFill s).id = s.id := by
  simp only [xFill, xNext, xByte, shiftByte_eq, State.answer]
@[simp] theorem xFill_ctrlBusy : (xFill s).ctrlBusy = s.ctrlBusy := by
  simp only [xFill, xNext, xByte, shiftByte_eq, State.answer]
@[simp] theorem xFill_errTimeout : (xFill s).errTimeout = s.errTimeout := by
  simp only [xFill, xNext, xByte, shiftByte_eq, State.answer]
@[simp] theorem xFill_pollCnt : (xFill s).pollCnt = s.pollCnt := by
  simp only [xFill, xNext, xByte, shiftByte_eq, State.answer]
@[simp] theorem xFill_seq : (xFill s).seq = s.seq := by
  simp only [xFill, xNext, xByte, shiftByte_eq, State.answer]
@[simp] theorem xFill_pageLatch : (xFill s).pageLatch = s.pageLatch := by
  simp only [xFill, xNext, xByte, shiftByte_eq, State.answer]
@[simp] theorem xFill_byteCnt : (xFill s).byteCnt = s.byteCnt + 1 := by
  simp only [xFill, xNext, xByte, shiftByte_eq, State.answer]
@[simp] theorem xFill_bitCnt : (xFill s).bitCnt = 0 := by
  simp only [xFill, xNext, xByte, shiftByte_eq, State.answer]
@[simp] theorem xFill_sho : (xFill s).sho = s.cfg.dummyByte := by
  simp only [xFill, xNext, xByte, shiftByte_eq, State.answer]
@[simp] theorem xFill_shi : (xFill s).shi = (s.answer s.cfg.dummyByte).1 := by
  simp only [xFill, xNext, xByte, shiftByte_eq, State.answer]
@[simp] theorem xFill_sample : (xFill s).sample = s.sample := by
  simp only [xFill, xNext, xByte, shiftByte_eq, State.answer]
@[simp] theorem xFill_dev : (xFill s).dev = (s.answer s.cfg.dummyByte).2 := by
  simp only [xFill, xNext, xByte, shiftByte_eq, State.answer]
@[simp] theorem xFill_agenda : (xFill s).agenda = s.agenda := by
  simp only [xFill, xNext, xByte, shiftByte_eq, State.answer]
@[simp] theorem xFill_rdata : (xFill s).rdata = s.rdata := by
  simp only [xFill, xNext, xByte, shiftByte_eq, State.answer]
@[simp] theorem xFill_trace : (xFill s).trace = .x s.cfg.dummyByte (s.answer s.cfg.dummyByte).1 :: s.trace := by
  simp only [xFill, xNext, xByte, shiftByte_eq, State.answer]
@[simp] theorem xFill_freeCtr : (xFill s).freeCtr = s.freeCtr + 1 := by
  simp only [xFill, xNext, xByte, shiftByte_eq, State.answer]

/-! ### xSample -/

@[simp] theorem xSample_cfg : (xSample s).cfg = s.cfg := by
  simp only [xSample, xByte, shiftByte_eq, State.answer]
@[simp] theorem xSample_csN : (xSample s).csN = s.csN := by
  simp only [xSample, xByte, shiftByte_eq, State.answer]
@[simp] theorem xSample_sck : (xSample s).sck = false := by
  simp only [xSample, xByte, shiftByte_eq, State.answer]
@[simp] theorem xSample_mosi : (xSample s).mosi = s.cfg.dummyByte.getLsbD 0 := by
  simp only [xSample, xByte, shiftByte_eq, State.answer]
@[simp] theorem xSample_pageIndex : (xSample s).pageIndex = s.pageIndex := by
  simp only [xSample, xByte, shiftByte_eq, State.answer]
@[simp] theorem xSample_txbuf : (xSample s).txbuf = s.txbuf := by
  simp only [xSample, xByte, shiftByte_eq, State.answer]
@[simp] theorem xSample_rxbuf : (xSample s).rxbuf = s.rxbuf := by
  simp only [xSample, xByte, shiftByte_eq, State.answer]
@[simp] theorem xSample_id : (xSample s).id = s.id := by
  simp only [xSample, xByte, shiftByte_eq, State.answer]
@[simp] theorem xSample_ctrlBusy : (xSample s).ctrlBusy = s.ctrlBusy := by
  simp only [xSample, xByte, shiftByte_eq, State.answer]
@[simp] theorem xSample_errTimeout : (xSample s).errTimeout = s.errTimeout := by
  simp only [xSample, xByte, shiftByte_eq, State.answer]
@[simp] theorem xSample_pollCnt : (xSample s).pollCnt = s.pollCnt := by
  simp only [xSample, xByte, shiftByte_eq, State.answer]
@[simp] theorem xSample_seq : (xSample s).seq = s.seq := by
  simp only [xSample, xByte, shiftByte_eq, State.answer]
@[simp] theorem xSample_pageLatch : (xSample s).pageLatch = s.pageLatch := by
  simp only [xSample, xByte, shiftByte_eq, State.answer]
@[simp] theorem xSample_byteCnt : (xSample s).byteCnt = 1 := by
  simp only [xSample, xByte, shiftByte_eq, State.answer]
@[simp] theorem xSample_bitCnt : (xSample s).bitCnt = 0 := by
  simp only [xSample, xByte, shiftByte_eq, State.answer]
@[simp] theorem xSample_sho : (xSample s).sho = s.cfg.dummyByte := by
  simp only [xSample, xByte, shiftByte_eq, State.answer]
@[simp] theorem xSample_shi : (xSample s).shi = (s.answer s.cfg.dummyByte).1 := by
  simp only [xSample, xByte, shiftByte_eq, State.answer]
@[simp] theorem xSample_sample : (xSample s).sample = s.sample := by
  simp only [xSample, xByte, shiftByte_eq, State.answer]
@[simp] theorem xSample_dev : (xSample s).dev = (s.answer s.cfg.dummyByte).2 := by
  simp only [xSample, xByte, shiftByte_eq, State.answer]
@[simp] theorem xSample_agenda : (xSample s).agenda = s.agenda := by
  simp only [xSample, xByte, shiftByte_eq, State.answer]
@[simp] theorem xSample_rdata : (xSample s).rdata = s.rdata := by
  simp only [xSample, xByte, shiftByte_eq, State.answer]
@[simp] theorem xSample_trace : (xSample s).trace = .x s.cfg.dummyByte (s.answer s.cfg.dummyByte).1 :: s.trace := by
  simp only [xSample, xByte, shiftByte_eq, State.answer]
@[simp] theorem xSample_freeCtr : (xSample s).freeCtr = s.freeCtr + 1 := by
  simp only [xSample, xByte, shiftByte_eq, State.answer]

/-! ### storeId -/

@[simp] theorem storeId_cfg (k : Fin 3) : (storeId k s).cfg = s.cfg := rfl
@[simp] theorem storeId_csN (k : Fin 3) : (storeId k s).csN = s.csN := rfl
@[simp] theorem storeId_sck (k : Fin 3) : (storeId k s).sck = s.sck := rfl
@[simp] theorem storeId_mosi (k : Fin 3) : (storeId k s).mosi = s.mosi := rfl
@[simp] theorem storeId_pageIndex (k : Fin 3) : (storeId k s).pageIndex = s.pageIndex := rfl
@[simp] theorem storeId_txbuf (k : Fin 3) : (storeId k s).txbuf = s.txbuf := rfl
@[simp] theorem storeId_rxbuf (k : Fin 3) : (storeId k s).rxbuf = s.rxbuf := rfl
@[simp] theorem storeId_id (k : Fin 3) : (storeId k s).id = s.id.set k s.shi := rfl
@[simp] theorem storeId_ctrlBusy (k : Fin 3) : (storeId k s).ctrlBusy = s.ctrlBusy := rfl
@[simp] theorem storeId_errTimeout (k : Fin 3) : (storeId k s).errTimeout = s.errTimeout := rfl
@[simp] theorem storeId_pollCnt (k : Fin 3) : (storeId k s).pollCnt = s.pollCnt := rfl
@[simp] theorem storeId_seq (k : Fin 3) : (storeId k s).seq = s.seq := rfl
@[simp] theorem storeId_pageLatch (k : Fin 3) : (storeId k s).pageLatch = s.pageLatch := rfl
@[simp] theorem storeId_byteCnt (k : Fin 3) : (storeId k s).byteCnt = s.byteCnt := rfl
@[simp] theorem storeId_bitCnt (k : Fin 3) : (storeId k s).bitCnt = s.bitCnt := rfl
@[simp] theorem storeId_sho (k : Fin 3) : (storeId k s).sho = s.sho := rfl
@[simp] theorem storeId_shi (k : Fin 3) : (storeId k s).shi = s.shi := rfl
@[simp] theorem storeId_sample (k : Fin 3) : (storeId k s).sample = s.sample := rfl
@[simp] theorem storeId_dev (k : Fin 3) : (storeId k s).dev = s.dev := rfl
@[simp] theorem storeId_agenda (k : Fin 3) : (storeId k s).agenda = s.agenda := rfl
@[simp] theorem storeId_rdata (k : Fin 3) : (storeId k s).rdata = s.rdata := rfl
@[simp] theorem storeId_trace (k : Fin 3) : (storeId k s).trace = s.trace := rfl
@[simp] theorem storeId_freeCtr (k : Fin 3) : (storeId k s).freeCtr = s.freeCtr := rfl

/-! ### storeRx -/

@[simp] theorem storeRx_cfg (i : Fin 256) : (storeRx i s).cfg = s.cfg := rfl
@[simp] theorem storeRx_csN (i : Fin 256) : (storeRx i s).csN = s.csN := rfl
@[simp] theorem storeRx_sck (i : Fin 256) : (storeRx i s).sck = s.sck := rfl
@[simp] theorem storeRx_mosi (i : Fin 256) : (storeRx i s).mosi = s.mosi := rfl
@[simp] theorem storeRx_pageIndex (i : Fin 256) : (storeRx i s).pageIndex = s.pageIndex := rfl
@[simp] theorem storeRx_txbuf (i : Fin 256) : (storeRx i s).txbuf = s.txbuf := rfl
@[simp] theorem storeRx_rxbuf (i : Fin 256) : (storeRx i s).rxbuf = s.rxbuf.set i s.shi := rfl
@[simp] theorem storeRx_id (i : Fin 256) : (storeRx i s).id = s.id := rfl
@[simp] theorem storeRx_ctrlBusy (i : Fin 256) : (storeRx i s).ctrlBusy = s.ctrlBusy := rfl
@[simp] theorem storeRx_errTimeout (i : Fin 256) : (storeRx i s).errTimeout = s.errTimeout := rfl
@[simp] theorem storeRx_pollCnt (i : Fin 256) : (storeRx i s).pollCnt = s.pollCnt := rfl
@[simp] theorem storeRx_seq (i : Fin 256) : (storeRx i s).seq = s.seq := rfl
@[simp] theorem storeRx_pageLatch (i : Fin 256) : (storeRx i s).pageLatch = s.pageLatch := rfl
@[simp] theorem storeRx_byteCnt (i : Fin 256) : (storeRx i s).byteCnt = s.byteCnt := rfl
@[simp] theorem storeRx_bitCnt (i : Fin 256) : (storeRx i s).bitCnt = s.bitCnt := rfl
@[simp] theorem storeRx_sho (i : Fin 256) : (storeRx i s).sho = s.sho := rfl
@[simp] theorem storeRx_shi (i : Fin 256) : (storeRx i s).shi = s.shi := rfl
@[simp] theorem storeRx_sample (i : Fin 256) : (storeRx i s).sample = s.sample := rfl
@[simp] theorem storeRx_dev (i : Fin 256) : (storeRx i s).dev = s.dev := rfl
@[simp] theorem storeRx_agenda (i : Fin 256) : (storeRx i s).agenda = s.agenda := rfl
@[simp] theorem storeRx_rdata (i : Fin 256) : (storeRx i s).rdata = s.rdata := rfl
@[simp] theorem storeRx_trace (i : Fin 256) : (storeRx i s).trace = s.trace := rfl
@[simp] theorem storeRx_freeCtr (i : Fin 256) : (storeRx i s).freeCtr = s.freeCtr := rfl

/-! ### storeSample -/

@[simp] theorem storeSample_cfg : (storeSample s).cfg = s.cfg := rfl
@[simp] theorem storeSample_csN : (storeSample s).csN = s.csN := rfl
@[simp] theorem storeSample_sck : (storeSample s).sck = s.sck := rfl
@[simp] theorem storeSample_mosi : (storeSample s).mosi = s.mosi := rfl
@[simp] theorem storeSample_pageIndex : (storeSample s).pageIndex = s.pageIndex := rfl
@[simp] theorem storeSample_txbuf : (storeSample s).txbuf = s.txbuf := rfl
@[simp] theorem storeSample_rxbuf : (storeSample s).rxbuf = s.rxbuf := rfl
@[simp] theorem storeSample_id : (storeSample s).id = s.id := rfl
@[simp] theorem storeSample_ctrlBusy : (storeSample s).ctrlBusy = s.ctrlBusy := rfl
@[simp] theorem storeSample_errTimeout : (storeSample s).errTimeout = s.errTimeout := rfl
@[simp] theorem storeSample_pollCnt : (storeSample s).pollCnt = s.pollCnt := rfl
@[simp] theorem storeSample_seq : (storeSample s).seq = s.seq := rfl
@[simp] theorem storeSample_pageLatch : (storeSample s).pageLatch = s.pageLatch := rfl
@[simp] theorem storeSample_byteCnt : (storeSample s).byteCnt = s.byteCnt := rfl
@[simp] theorem storeSample_bitCnt : (storeSample s).bitCnt = s.bitCnt := rfl
@[simp] theorem storeSample_sho : (storeSample s).sho = s.sho := rfl
@[simp] theorem storeSample_shi : (storeSample s).shi = s.shi := rfl
@[simp] theorem storeSample_sample : (storeSample s).sample = s.shi := rfl
@[simp] theorem storeSample_dev : (storeSample s).dev = s.dev := rfl
@[simp] theorem storeSample_agenda : (storeSample s).agenda = s.agenda := rfl
@[simp] theorem storeSample_rdata : (storeSample s).rdata = s.rdata := rfl
@[simp] theorem storeSample_trace : (storeSample s).trace = s.trace := rfl
@[simp] theorem storeSample_freeCtr : (storeSample s).freeCtr = s.freeCtr := rfl

/-! ### goto -/

@[simp] theorem goto_cfg (c : Command) (r : Row) : (goto c r s).cfg = s.cfg := rfl
@[simp] theorem goto_csN (c : Command) (r : Row) : (goto c r s).csN = s.csN := rfl
@[simp] theorem goto_sck (c : Command) (r : Row) : (goto c r s).sck = s.sck := rfl
@[simp] theorem goto_mosi (c : Command) (r : Row) : (goto c r s).mosi = s.mosi := rfl
@[simp] theorem goto_pageIndex (c : Command) (r : Row) : (goto c r s).pageIndex = s.pageIndex := rfl
@[simp] theorem goto_txbuf (c : Command) (r : Row) : (goto c r s).txbuf = s.txbuf := rfl
@[simp] theorem goto_rxbuf (c : Command) (r : Row) : (goto c r s).rxbuf = s.rxbuf := rfl
@[simp] theorem goto_id (c : Command) (r : Row) : (goto c r s).id = s.id := rfl
@[simp] theorem goto_ctrlBusy (c : Command) (r : Row) : (goto c r s).ctrlBusy = s.ctrlBusy := rfl
@[simp] theorem goto_errTimeout (c : Command) (r : Row) : (goto c r s).errTimeout = s.errTimeout := rfl
@[simp] theorem goto_pollCnt (c : Command) (r : Row) : (goto c r s).pollCnt = s.pollCnt := rfl
@[simp] theorem goto_seq (c : Command) (r : Row) : (goto c r s).seq = .at c r := rfl
@[simp] theorem goto_pageLatch (c : Command) (r : Row) : (goto c r s).pageLatch = s.pageLatch := rfl
@[simp] theorem goto_byteCnt (c : Command) (r : Row) : (goto c r s).byteCnt = s.byteCnt := rfl
@[simp] theorem goto_bitCnt (c : Command) (r : Row) : (goto c r s).bitCnt = s.bitCnt := rfl
@[simp] theorem goto_sho (c : Command) (r : Row) : (goto c r s).sho = s.sho := rfl
@[simp] theorem goto_shi (c : Command) (r : Row) : (goto c r s).shi = s.shi := rfl
@[simp] theorem goto_sample (c : Command) (r : Row) : (goto c r s).sample = s.sample := rfl
@[simp] theorem goto_dev (c : Command) (r : Row) : (goto c r s).dev = s.dev := rfl
@[simp] theorem goto_agenda (c : Command) (r : Row) : (goto c r s).agenda = s.agenda := rfl
@[simp] theorem goto_rdata (c : Command) (r : Row) : (goto c r s).rdata = s.rdata := rfl
@[simp] theorem goto_trace (c : Command) (r : Row) : (goto c r s).trace = s.trace := rfl
@[simp] theorem goto_freeCtr (c : Command) (r : Row) : (goto c r s).freeCtr = s.freeCtr := rfl

/-! ### endCommand -/

@[simp] theorem endCommand_cfg : (endCommand s).cfg = s.cfg := rfl
@[simp] theorem endCommand_csN : (endCommand s).csN = s.csN := rfl
@[simp] theorem endCommand_sck : (endCommand s).sck = s.sck := rfl
@[simp] theorem endCommand_mosi : (endCommand s).mosi = s.mosi := rfl
@[simp] theorem endCommand_pageIndex : (endCommand s).pageIndex = s.pageIndex := rfl
@[simp] theorem endCommand_txbuf : (endCommand s).txbuf = s.txbuf := rfl
@[simp] theorem endCommand_rxbuf : (endCommand s).rxbuf = s.rxbuf := rfl
@[simp] theorem endCommand_id : (endCommand s).id = s.id := rfl
@[simp] theorem endCommand_ctrlBusy : (endCommand s).ctrlBusy = false := rfl
@[simp] theorem endCommand_errTimeout : (endCommand s).errTimeout = s.errTimeout := rfl
@[simp] theorem endCommand_pollCnt : (endCommand s).pollCnt = s.pollCnt := rfl
@[simp] theorem endCommand_seq : (endCommand s).seq = .idle := rfl
@[simp] theorem endCommand_pageLatch : (endCommand s).pageLatch = s.pageLatch := rfl
@[simp] theorem endCommand_byteCnt : (endCommand s).byteCnt = s.byteCnt := rfl
@[simp] theorem endCommand_bitCnt : (endCommand s).bitCnt = s.bitCnt := rfl
@[simp] theorem endCommand_sho : (endCommand s).sho = s.sho := rfl
@[simp] theorem endCommand_shi : (endCommand s).shi = s.shi := rfl
@[simp] theorem endCommand_sample : (endCommand s).sample = s.sample := rfl
@[simp] theorem endCommand_dev : (endCommand s).dev = s.dev := rfl
@[simp] theorem endCommand_agenda : (endCommand s).agenda = s.agenda := rfl
@[simp] theorem endCommand_rdata : (endCommand s).rdata = s.rdata := rfl
@[simp] theorem endCommand_trace : (endCommand s).trace = s.trace := rfl
@[simp] theorem endCommand_freeCtr : (endCommand s).freeCtr = s.freeCtr := rfl

/-! ### enterPoll -/

@[simp] theorem enterPoll_cfg (c : Command) : (enterPoll c s).cfg = s.cfg := rfl
@[simp] theorem enterPoll_csN (c : Command) : (enterPoll c s).csN = s.csN := rfl
@[simp] theorem enterPoll_sck (c : Command) : (enterPoll c s).sck = s.sck := rfl
@[simp] theorem enterPoll_mosi (c : Command) : (enterPoll c s).mosi = s.mosi := rfl
@[simp] theorem enterPoll_pageIndex (c : Command) : (enterPoll c s).pageIndex = s.pageIndex := rfl
@[simp] theorem enterPoll_txbuf (c : Command) : (enterPoll c s).txbuf = s.txbuf := rfl
@[simp] theorem enterPoll_rxbuf (c : Command) : (enterPoll c s).rxbuf = s.rxbuf := rfl
@[simp] theorem enterPoll_id (c : Command) : (enterPoll c s).id = s.id := rfl
@[simp] theorem enterPoll_ctrlBusy (c : Command) : (enterPoll c s).ctrlBusy = s.ctrlBusy := rfl
@[simp] theorem enterPoll_errTimeout (c : Command) : (enterPoll c s).errTimeout = s.errTimeout := rfl
@[simp] theorem enterPoll_pollCnt (c : Command) : (enterPoll c s).pollCnt = 0 := rfl
@[simp] theorem enterPoll_seq (c : Command) : (enterPoll c s).seq = .at c .p0 := rfl
@[simp] theorem enterPoll_pageLatch (c : Command) : (enterPoll c s).pageLatch = s.pageLatch := rfl
@[simp] theorem enterPoll_byteCnt (c : Command) : (enterPoll c s).byteCnt = s.byteCnt := rfl
@[simp] theorem enterPoll_bitCnt (c : Command) : (enterPoll c s).bitCnt = s.bitCnt := rfl
@[simp] theorem enterPoll_sho (c : Command) : (enterPoll c s).sho = s.sho := rfl
@[simp] theorem enterPoll_shi (c : Command) : (enterPoll c s).shi = s.shi := rfl
@[simp] theorem enterPoll_sample (c : Command) : (enterPoll c s).sample = s.sample := rfl
@[simp] theorem enterPoll_dev (c : Command) : (enterPoll c s).dev = s.dev := rfl
@[simp] theorem enterPoll_agenda (c : Command) : (enterPoll c s).agenda = s.agenda := rfl
@[simp] theorem enterPoll_rdata (c : Command) : (enterPoll c s).rdata = s.rdata := rfl
@[simp] theorem enterPoll_trace (c : Command) : (enterPoll c s).trace = s.trace := rfl
@[simp] theorem enterPoll_freeCtr (c : Command) : (enterPoll c s).freeCtr = s.freeCtr := rfl

/-! ### accept -/

@[simp] theorem accept_cfg (c : Command) : (accept c s).cfg = s.cfg := rfl
@[simp] theorem accept_csN (c : Command) : (accept c s).csN = s.csN := rfl
@[simp] theorem accept_sck (c : Command) : (accept c s).sck = s.sck := rfl
@[simp] theorem accept_mosi (c : Command) : (accept c s).mosi = s.mosi := rfl
@[simp] theorem accept_pageIndex (c : Command) : (accept c s).pageIndex = s.pageIndex := rfl
@[simp] theorem accept_txbuf (c : Command) : (accept c s).txbuf = s.txbuf := rfl
@[simp] theorem accept_rxbuf (c : Command) : (accept c s).rxbuf = s.rxbuf := rfl
@[simp] theorem accept_id (c : Command) : (accept c s).id = s.id := rfl
@[simp] theorem accept_ctrlBusy (c : Command) : (accept c s).ctrlBusy = true := rfl
@[simp] theorem accept_errTimeout (c : Command) : (accept c s).errTimeout = false := rfl
@[simp] theorem accept_pollCnt (c : Command) : (accept c s).pollCnt = if c = .pollUntilReady then 0 else s.pollCnt := rfl
@[simp] theorem accept_seq (c : Command) : (accept c s).seq = .at c (firstRow c) := rfl
@[simp] theorem accept_pageLatch (c : Command) : (accept c s).pageLatch = s.pageIndex := rfl
@[simp] theorem accept_byteCnt (c : Command) : (accept c s).byteCnt = s.byteCnt := rfl
@[simp] theorem accept_bitCnt (c : Command) : (accept c s).bitCnt = s.bitCnt := rfl
@[simp] theorem accept_sho (c : Command) : (accept c s).sho = s.sho := rfl
@[simp] theorem accept_shi (c : Command) : (accept c s).shi = s.shi := rfl
@[simp] theorem accept_sample (c : Command) : (accept c s).sample = s.sample := rfl
@[simp] theorem accept_dev (c : Command) : (accept c s).dev = s.dev := rfl
@[simp] theorem accept_agenda (c : Command) : (accept c s).agenda = s.agenda := rfl
@[simp] theorem accept_rdata (c : Command) : (accept c s).rdata = s.rdata := rfl
@[simp] theorem accept_trace (c : Command) : (accept c s).trace = s.trace := rfl
@[simp] theorem accept_freeCtr (c : Command) : (accept c s).freeCtr = s.freeCtr := rfl

/-! ### afterDesel -/

@[simp] theorem afterDesel_cfg (c : Command) : (afterDesel c s).cfg = s.cfg := by
  unfold afterDesel; split <;> simp_all [goto, endCommand]
@[simp] theorem afterDesel_csN (c : Command) : (afterDesel c s).csN = s.csN := by
  unfold afterDesel; split <;> simp_all [goto, endCommand]
@[simp] theorem afterDesel_sck (c : Command) : (afterDesel c s).sck = s.sck := by
  unfold afterDesel; split <;> simp_all [goto, endCommand]
@[simp] theorem afterDesel_mosi (c : Command) : (afterDesel c s).mosi = s.mosi := by
  unfold afterDesel; split <;> simp_all [goto, endCommand]
@[simp] theorem afterDesel_pageIndex (c : Command) : (afterDesel c s).pageIndex = s.pageIndex := by
  unfold afterDesel; split <;> simp_all [goto, endCommand]
@[simp] theorem afterDesel_txbuf (c : Command) : (afterDesel c s).txbuf = s.txbuf := by
  unfold afterDesel; split <;> simp_all [goto, endCommand]
@[simp] theorem afterDesel_rxbuf (c : Command) : (afterDesel c s).rxbuf = s.rxbuf := by
  unfold afterDesel; split <;> simp_all [goto, endCommand]
@[simp] theorem afterDesel_id (c : Command) : (afterDesel c s).id = s.id := by
  unfold afterDesel; split <;> simp_all [goto, endCommand]
@[simp] theorem afterDesel_ctrlBusy (c : Command) : (afterDesel c s).ctrlBusy = if s.cfg.pollFraming = .perSample then s.ctrlBusy else false := by
  unfold afterDesel; split <;> simp_all [goto, endCommand]
@[simp] theorem afterDesel_errTimeout (c : Command) : (afterDesel c s).errTimeout = s.errTimeout := by
  unfold afterDesel; split <;> simp_all [goto, endCommand]
@[simp] theorem afterDesel_pollCnt (c : Command) : (afterDesel c s).pollCnt = s.pollCnt := by
  unfold afterDesel; split <;> simp_all [goto, endCommand]
@[simp] theorem afterDesel_seq (c : Command) : (afterDesel c s).seq = if s.cfg.pollFraming = .perSample then .at c .p4 else .idle := by
  unfold afterDesel; split <;> simp_all [goto, endCommand]
@[simp] theorem afterDesel_pageLatch (c : Command) : (afterDesel c s).pageLatch = s.pageLatch := by
  unfold afterDesel; split <;> simp_all [goto, endCommand]
@[simp] theorem afterDesel_byteCnt (c : Command) : (afterDesel c s).byteCnt = s.byteCnt := by
  unfold afterDesel; split <;> simp_all [goto, endCommand]
@[simp] theorem afterDesel_bitCnt (c : Command) : (afterDesel c s).bitCnt = s.bitCnt := by
  unfold afterDesel; split <;> simp_all [goto, endCommand]
@[simp] theorem afterDesel_sho (c : Command) : (afterDesel c s).sho = s.sho := by
  unfold afterDesel; split <;> simp_all [goto, endCommand]
@[simp] theorem afterDesel_shi (c : Command) : (afterDesel c s).shi = s.shi := by
  unfold afterDesel; split <;> simp_all [goto, endCommand]
@[simp] theorem afterDesel_sample (c : Command) : (afterDesel c s).sample = s.sample := by
  unfold afterDesel; split <;> simp_all [goto, endCommand]
@[simp] theorem afterDesel_dev (c : Command) : (afterDesel c s).dev = s.dev := by
  unfold afterDesel; split <;> simp_all [goto, endCommand]
@[simp] theorem afterDesel_agenda (c : Command) : (afterDesel c s).agenda = s.agenda := by
  unfold afterDesel; split <;> simp_all [goto, endCommand]
@[simp] theorem afterDesel_rdata (c : Command) : (afterDesel c s).rdata = s.rdata := by
  unfold afterDesel; split <;> simp_all [goto, endCommand]
@[simp] theorem afterDesel_trace (c : Command) : (afterDesel c s).trace = s.trace := by
  unfold afterDesel; split <;> simp_all [goto, endCommand]
@[simp] theorem afterDesel_freeCtr (c : Command) : (afterDesel c s).freeCtr = s.freeCtr := by
  unfold afterDesel; split <;> simp_all [goto, endCommand]

/-! ### leavePoll -/

@[simp] theorem leavePoll_cfg (c : Command) : (leavePoll c s).cfg = s.cfg := by
  unfold leavePoll; split <;> simp_all [goto, endCommand]
@[simp] theorem leavePoll_csN (c : Command) : (leavePoll c s).csN = s.csN := by
  unfold leavePoll; split <;> simp_all [goto, endCommand]
@[simp] theorem leavePoll_sck (c : Command) : (leavePoll c s).sck = s.sck := by
  unfold leavePoll; split <;> simp_all [goto, endCommand]
@[simp] theorem leavePoll_mosi (c : Command) : (leavePoll c s).mosi = s.mosi := by
  unfold leavePoll; split <;> simp_all [goto, endCommand]
@[simp] theorem leavePoll_pageIndex (c : Command) : (leavePoll c s).pageIndex = s.pageIndex := by
  unfold leavePoll; split <;> simp_all [goto, endCommand]
@[simp] theorem leavePoll_txbuf (c : Command) : (leavePoll c s).txbuf = s.txbuf := by
  unfold leavePoll; split <;> simp_all [goto, endCommand]
@[simp] theorem leavePoll_rxbuf (c : Command) : (leavePoll c s).rxbuf = s.rxbuf := by
  unfold leavePoll; split <;> simp_all [goto, endCommand]
@[simp] theorem leavePoll_id (c : Command) : (leavePoll c s).id = s.id := by
  unfold leavePoll; split <;> simp_all [goto, endCommand]
@[simp] theorem leavePoll_ctrlBusy (c : Command) : (leavePoll c s).ctrlBusy = if s.cfg.pollFraming = .perSample then false else s.ctrlBusy := by
  unfold leavePoll; split <;> simp_all [goto, endCommand]
@[simp] theorem leavePoll_errTimeout (c : Command) : (leavePoll c s).errTimeout = s.errTimeout := by
  unfold leavePoll; split <;> simp_all [goto, endCommand]
@[simp] theorem leavePoll_pollCnt (c : Command) : (leavePoll c s).pollCnt = s.pollCnt := by
  unfold leavePoll; split <;> simp_all [goto, endCommand]
@[simp] theorem leavePoll_seq (c : Command) : (leavePoll c s).seq = if s.cfg.pollFraming = .perSample then .idle else .at c .p3 := by
  unfold leavePoll; split <;> simp_all [goto, endCommand]
@[simp] theorem leavePoll_pageLatch (c : Command) : (leavePoll c s).pageLatch = s.pageLatch := by
  unfold leavePoll; split <;> simp_all [goto, endCommand]
@[simp] theorem leavePoll_byteCnt (c : Command) : (leavePoll c s).byteCnt = s.byteCnt := by
  unfold leavePoll; split <;> simp_all [goto, endCommand]
@[simp] theorem leavePoll_bitCnt (c : Command) : (leavePoll c s).bitCnt = s.bitCnt := by
  unfold leavePoll; split <;> simp_all [goto, endCommand]
@[simp] theorem leavePoll_sho (c : Command) : (leavePoll c s).sho = s.sho := by
  unfold leavePoll; split <;> simp_all [goto, endCommand]
@[simp] theorem leavePoll_shi (c : Command) : (leavePoll c s).shi = s.shi := by
  unfold leavePoll; split <;> simp_all [goto, endCommand]
@[simp] theorem leavePoll_sample (c : Command) : (leavePoll c s).sample = s.sample := by
  unfold leavePoll; split <;> simp_all [goto, endCommand]
@[simp] theorem leavePoll_dev (c : Command) : (leavePoll c s).dev = s.dev := by
  unfold leavePoll; split <;> simp_all [goto, endCommand]
@[simp] theorem leavePoll_agenda (c : Command) : (leavePoll c s).agenda = s.agenda := by
  unfold leavePoll; split <;> simp_all [goto, endCommand]
@[simp] theorem leavePoll_rdata (c : Command) : (leavePoll c s).rdata = s.rdata := by
  unfold leavePoll; split <;> simp_all [goto, endCommand]
@[simp] theorem leavePoll_trace (c : Command) : (leavePoll c s).trace = s.trace := by
  unfold leavePoll; split <;> simp_all [goto, endCommand]
@[simp] theorem leavePoll_freeCtr (c : Command) : (leavePoll c s).freeCtr = s.freeCtr := by
  unfold leavePoll; split <;> simp_all [goto, endCommand]

/-! ### raiseDeviceTimeout -/

@[simp] theorem raiseDeviceTimeout_cfg (c : Command) : (raiseDeviceTimeout c s).cfg = s.cfg := by
  simp [raiseDeviceTimeout]
@[simp] theorem raiseDeviceTimeout_csN (c : Command) : (raiseDeviceTimeout c s).csN = s.csN := by
  simp [raiseDeviceTimeout]
@[simp] theorem raiseDeviceTimeout_sck (c : Command) : (raiseDeviceTimeout c s).sck = s.sck := by
  simp [raiseDeviceTimeout]
@[simp] theorem raiseDeviceTimeout_mosi (c : Command) : (raiseDeviceTimeout c s).mosi = s.mosi := by
  simp [raiseDeviceTimeout]
@[simp] theorem raiseDeviceTimeout_pageIndex (c : Command) : (raiseDeviceTimeout c s).pageIndex = s.pageIndex := by
  simp [raiseDeviceTimeout]
@[simp] theorem raiseDeviceTimeout_txbuf (c : Command) : (raiseDeviceTimeout c s).txbuf = s.txbuf := by
  simp [raiseDeviceTimeout]
@[simp] theorem raiseDeviceTimeout_rxbuf (c : Command) : (raiseDeviceTimeout c s).rxbuf = s.rxbuf := by
  simp [raiseDeviceTimeout]
@[simp] theorem raiseDeviceTimeout_id (c : Command) : (raiseDeviceTimeout c s).id = s.id := by
  simp [raiseDeviceTimeout]
@[simp] theorem raiseDeviceTimeout_ctrlBusy (c : Command) : (raiseDeviceTimeout c s).ctrlBusy = if s.cfg.pollFraming = .perSample then false else s.ctrlBusy := by
  simp [raiseDeviceTimeout]
@[simp] theorem raiseDeviceTimeout_errTimeout (c : Command) : (raiseDeviceTimeout c s).errTimeout = true := by
  simp [raiseDeviceTimeout]
@[simp] theorem raiseDeviceTimeout_pollCnt (c : Command) : (raiseDeviceTimeout c s).pollCnt = s.pollCnt := by
  simp [raiseDeviceTimeout]
@[simp] theorem raiseDeviceTimeout_seq (c : Command) : (raiseDeviceTimeout c s).seq = if s.cfg.pollFraming = .perSample then .idle else .at c .p3 := by
  simp [raiseDeviceTimeout]
@[simp] theorem raiseDeviceTimeout_pageLatch (c : Command) : (raiseDeviceTimeout c s).pageLatch = s.pageLatch := by
  simp [raiseDeviceTimeout]
@[simp] theorem raiseDeviceTimeout_byteCnt (c : Command) : (raiseDeviceTimeout c s).byteCnt = s.byteCnt := by
  simp [raiseDeviceTimeout]
@[simp] theorem raiseDeviceTimeout_bitCnt (c : Command) : (raiseDeviceTimeout c s).bitCnt = s.bitCnt := by
  simp [raiseDeviceTimeout]
@[simp] theorem raiseDeviceTimeout_sho (c : Command) : (raiseDeviceTimeout c s).sho = s.sho := by
  simp [raiseDeviceTimeout]
@[simp] theorem raiseDeviceTimeout_shi (c : Command) : (raiseDeviceTimeout c s).shi = s.shi := by
  simp [raiseDeviceTimeout]
@[simp] theorem raiseDeviceTimeout_sample (c : Command) : (raiseDeviceTimeout c s).sample = s.sample := by
  simp [raiseDeviceTimeout]
@[simp] theorem raiseDeviceTimeout_dev (c : Command) : (raiseDeviceTimeout c s).dev = s.dev := by
  simp [raiseDeviceTimeout]
@[simp] theorem raiseDeviceTimeout_agenda (c : Command) : (raiseDeviceTimeout c s).agenda = s.agenda := by
  simp [raiseDeviceTimeout]
@[simp] theorem raiseDeviceTimeout_rdata (c : Command) : (raiseDeviceTimeout c s).rdata = s.rdata := by
  simp [raiseDeviceTimeout]
@[simp] theorem raiseDeviceTimeout_trace (c : Command) : (raiseDeviceTimeout c s).trace = s.trace := by
  simp [raiseDeviceTimeout]
@[simp] theorem raiseDeviceTimeout_freeCtr (c : Command) : (raiseDeviceTimeout c s).freeCtr = s.freeCtr := by
  simp [raiseDeviceTimeout]

/-! ### withAgenda -/

@[simp] theorem withAgenda_cfg (rest : List HostMove) : (withAgenda rest s).cfg = s.cfg := rfl
@[simp] theorem withAgenda_csN (rest : List HostMove) : (withAgenda rest s).csN = s.csN := rfl
@[simp] theorem withAgenda_sck (rest : List HostMove) : (withAgenda rest s).sck = s.sck := rfl
@[simp] theorem withAgenda_mosi (rest : List HostMove) : (withAgenda rest s).mosi = s.mosi := rfl
@[simp] theorem withAgenda_pageIndex (rest : List HostMove) : (withAgenda rest s).pageIndex = s.pageIndex := rfl
@[simp] theorem withAgenda_txbuf (rest : List HostMove) : (withAgenda rest s).txbuf = s.txbuf := rfl
@[simp] theorem withAgenda_rxbuf (rest : List HostMove) : (withAgenda rest s).rxbuf = s.rxbuf := rfl
@[simp] theorem withAgenda_id (rest : List HostMove) : (withAgenda rest s).id = s.id := rfl
@[simp] theorem withAgenda_ctrlBusy (rest : List HostMove) : (withAgenda rest s).ctrlBusy = s.ctrlBusy := rfl
@[simp] theorem withAgenda_errTimeout (rest : List HostMove) : (withAgenda rest s).errTimeout = s.errTimeout := rfl
@[simp] theorem withAgenda_pollCnt (rest : List HostMove) : (withAgenda rest s).pollCnt = s.pollCnt := rfl
@[simp] theorem withAgenda_seq (rest : List HostMove) : (withAgenda rest s).seq = s.seq := rfl
@[simp] theorem withAgenda_pageLatch (rest : List HostMove) : (withAgenda rest s).pageLatch = s.pageLatch := rfl
@[simp] theorem withAgenda_byteCnt (rest : List HostMove) : (withAgenda rest s).byteCnt = s.byteCnt := rfl
@[simp] theorem withAgenda_bitCnt (rest : List HostMove) : (withAgenda rest s).bitCnt = s.bitCnt := rfl
@[simp] theorem withAgenda_sho (rest : List HostMove) : (withAgenda rest s).sho = s.sho := rfl
@[simp] theorem withAgenda_shi (rest : List HostMove) : (withAgenda rest s).shi = s.shi := rfl
@[simp] theorem withAgenda_sample (rest : List HostMove) : (withAgenda rest s).sample = s.sample := rfl
@[simp] theorem withAgenda_dev (rest : List HostMove) : (withAgenda rest s).dev = s.dev := rfl
@[simp] theorem withAgenda_agenda (rest : List HostMove) : (withAgenda rest s).agenda = rest := rfl
@[simp] theorem withAgenda_rdata (rest : List HostMove) : (withAgenda rest s).rdata = s.rdata := rfl
@[simp] theorem withAgenda_trace (rest : List HostMove) : (withAgenda rest s).trace = s.trace := rfl
@[simp] theorem withAgenda_freeCtr (rest : List HostMove) : (withAgenda rest s).freeCtr = s.freeCtr := rfl

/-! ### hostRead -/

@[simp] theorem hostRead_cfg (num : Nat) : (hostRead num s).cfg = s.cfg := rfl
@[simp] theorem hostRead_csN (num : Nat) : (hostRead num s).csN = s.csN := rfl
@[simp] theorem hostRead_sck (num : Nat) : (hostRead num s).sck = s.sck := rfl
@[simp] theorem hostRead_mosi (num : Nat) : (hostRead num s).mosi = s.mosi := rfl
@[simp] theorem hostRead_pageIndex (num : Nat) : (hostRead num s).pageIndex = s.pageIndex := rfl
@[simp] theorem hostRead_txbuf (num : Nat) : (hostRead num s).txbuf = s.txbuf := rfl
@[simp] theorem hostRead_rxbuf (num : Nat) : (hostRead num s).rxbuf = s.rxbuf := rfl
@[simp] theorem hostRead_id (num : Nat) : (hostRead num s).id = s.id := rfl
@[simp] theorem hostRead_ctrlBusy (num : Nat) : (hostRead num s).ctrlBusy = s.ctrlBusy := rfl
@[simp] theorem hostRead_errTimeout (num : Nat) : (hostRead num s).errTimeout = s.errTimeout := rfl
@[simp] theorem hostRead_pollCnt (num : Nat) : (hostRead num s).pollCnt = s.pollCnt := rfl
@[simp] theorem hostRead_seq (num : Nat) : (hostRead num s).seq = s.seq := rfl
@[simp] theorem hostRead_pageLatch (num : Nat) : (hostRead num s).pageLatch = s.pageLatch := rfl
@[simp] theorem hostRead_byteCnt (num : Nat) : (hostRead num s).byteCnt = s.byteCnt := rfl
@[simp] theorem hostRead_bitCnt (num : Nat) : (hostRead num s).bitCnt = s.bitCnt := rfl
@[simp] theorem hostRead_sho (num : Nat) : (hostRead num s).sho = s.sho := rfl
@[simp] theorem hostRead_shi (num : Nat) : (hostRead num s).shi = s.shi := rfl
@[simp] theorem hostRead_sample (num : Nat) : (hostRead num s).sample = s.sample := rfl
@[simp] theorem hostRead_dev (num : Nat) : (hostRead num s).dev = s.dev := rfl
@[simp] theorem hostRead_agenda (num : Nat) : (hostRead num s).agenda = s.agenda := rfl
@[simp] theorem hostRead_rdata (num : Nat) : (hostRead num s).rdata = readValue num s := rfl
@[simp] theorem hostRead_trace (num : Nat) : (hostRead num s).trace = s.trace := rfl
@[simp] theorem hostRead_freeCtr (num : Nat) : (hostRead num s).freeCtr = s.freeCtr + 1 := rfl

/-! ### `resetController` (R30, R170, R173) -/

@[simp] theorem resetController_cfg : (resetController s).cfg = s.cfg := rfl
@[simp] theorem resetController_csN : (resetController s).csN = true := rfl
@[simp] theorem resetController_sck : (resetController s).sck = false := rfl
@[simp] theorem resetController_mosi : (resetController s).mosi = false := rfl
@[simp] theorem resetController_pageIndex : (resetController s).pageIndex = 0 := rfl
@[simp] theorem resetController_txbuf : (resetController s).txbuf = Vector.replicate 256 0 := rfl
@[simp] theorem resetController_rxbuf : (resetController s).rxbuf = Vector.replicate 256 0 := rfl
@[simp] theorem resetController_id : (resetController s).id = Vector.replicate 3 0 := rfl
@[simp] theorem resetController_ctrlBusy : (resetController s).ctrlBusy = false := rfl
@[simp] theorem resetController_errTimeout : (resetController s).errTimeout = false := rfl
@[simp] theorem resetController_pollCnt : (resetController s).pollCnt = 0 := rfl
@[simp] theorem resetController_seq : (resetController s).seq = .idle := rfl
@[simp] theorem resetController_pageLatch : (resetController s).pageLatch = 0 := rfl
@[simp] theorem resetController_byteCnt : (resetController s).byteCnt = 0 := rfl
@[simp] theorem resetController_bitCnt : (resetController s).bitCnt = 0 := rfl
@[simp] theorem resetController_sho : (resetController s).sho = 0 := rfl
@[simp] theorem resetController_shi : (resetController s).shi = 0 := rfl
@[simp] theorem resetController_sample : (resetController s).sample = 0 := rfl
@[simp] theorem resetController_dev : (resetController s).dev = s.devAfterReset := rfl
@[simp] theorem resetController_agenda : (resetController s).agenda = s.agenda := rfl
@[simp] theorem resetController_rdata : (resetController s).rdata = s.rdata := rfl
@[simp] theorem resetController_trace : (resetController s).trace = if s.csN then s.trace else .cut :: s.trace := rfl
@[simp] theorem resetController_freeCtr : (resetController s).freeCtr = s.freeCtr + cutDraws s.cfg := rfl

end Sys2Proof.Machine
end

