-- ==== Sys2Proof/Laws/Frames.lean ====
section
/-! SUPPORT. What the frames of 41_frames do: the transfers of a data phase as one run of bytes, and one spec lemma per frame. -/

namespace Sys2Proof.Machine

theorem Device.exchange_length (c : Config) (n : Nat) (outs : List Byte) (d : Device) :
    (Device.exchange c n outs d).1.length = outs.length := by
  induction outs generalizing n d with
  | nil => rfl
  | cons o os ih => simp [Device.exchange, ih]

/-- A run of bytes is its first part, then the rest on the device the first part leaves. -/
theorem Device.exchange_append (c : Config) (n : Nat) (xs ys : List Byte) (d : Device) :
    Device.exchange c n (xs ++ ys) d =
      ((Device.exchange c n xs d).1 ++ (Device.exchange c (n + xs.length) ys (Device.exchange c n xs d).2).1,
        (Device.exchange c (n + xs.length) ys (Device.exchange c n xs d).2).2) := by
  induction xs generalizing n d with
  | nil => simp [Device.exchange]
  | cons x xs ih =>
    simp [Device.exchange, ih, Nat.add_assoc, Nat.add_comm 1]

/-- A scripted bus answers a run of bytes with its supply (R103). -/
theorem Device.exchange_script (c : Config) (n : Nat) (outs ins rest : List Byte) (h : ins.length = outs.length) :
    Device.exchange c n outs (.script (ins ++ rest)) = (ins, .script rest) := by
  induction outs generalizing n ins with
  | nil => cases ins <;> simp_all [Device.exchange]
  | cons o os ih =>
    cases ins with
    | nil => simp at h
    | cons i is =>
      simp only [List.length_cons, Nat.add_right_cancel_iff] at h
      simp [Device.exchange, Device.answer, ih _ _ h]

/-- What a run of transfers leaves of the bus: the events, the device, the draws (R104). -/
structure BusRun (outs : List Byte) (s t : State) : Prop where
  cfg : t.cfg = s.cfg
  csN : t.csN = s.csN
  dev : t.dev = (Device.exchange s.cfg s.freeCtr outs s.dev).2
  trace : t.trace = (transfers outs (Device.exchange s.cfg s.freeCtr outs s.dev).1).reverse ++ s.trace
  freeCtr : t.freeCtr = s.freeCtr + outs.length

theorem BusRun.nil (s : State) : BusRun [] s s := ⟨rfl, rfl, rfl, rfl, rfl⟩

/-- A transfer, then a run, is a longer run; `u` may differ from the state after the transfer off the bus. -/
theorem BusRun.cons {o : Byte} {os : List Byte} {s u t : State} (hcfg : u.cfg = s.cfg) (hcs : u.csN = s.csN)
    (hdev : u.dev = (s.answer o).2) (htr : u.trace = .x o (s.answer o).1 :: s.trace)
    (hctr : u.freeCtr = s.freeCtr + 1) (h : BusRun os u t) : BusRun (o :: os) s t := by
  obtain ⟨h1, h2, h3, h4, h5⟩ := h
  rw [hcfg, hctr, hdev] at h3 h4
  refine ⟨h1.trans hcfg, h2.trans hcs, ?_, ?_, ?_⟩
  · rw [h3]; rfl
  · rw [h4, htr]
    simp only [transfers, Device.exchange, State.answer, List.zipWith_cons_cons, List.reverse_cons, List.append_assoc,
      List.singleton_append]
  · rw [h5, hctr, List.length_cons]; omega

/-! ### The data phases -/

theorem readPhase_cons (i : Fin 256) (is : List (Fin 256)) (s : State) :
    readPhase (i :: is) s = readPhase is (storeRx i (xFill s)) := rfl

theorem programPhase_cons (i : Fin 256) (is : List (Fin 256)) (s : State) :
    programPhase (i :: is) s = programPhase is (xNext s.txbuf[i] s) := rfl

/-- The registers of `SameOperands`, ID and SAMPLE, which a data phase never writes. -/
def PhaseKeeps (s t : State) : Prop := s.SameOperands t ∧ t.id = s.id ∧ t.sample = s.sample

theorem PhaseKeeps.trans {s t u : State} (h : PhaseKeeps s t) (k : PhaseKeeps t u) : PhaseKeeps s u := by
  unfold PhaseKeeps State.SameOperands at *
  simp_all

theorem phaseKeeps_xNext (o : Byte) (s : State) : PhaseKeeps s (xNext o s) := by
  simp [PhaseKeeps, State.SameOperands]

theorem phaseKeeps_xOpcode (o : Byte) (s : State) : PhaseKeeps s (xOpcode o s) := by
  simp [PhaseKeeps, State.SameOperands]

theorem phaseKeeps_storeRx (i : Fin 256) (s : State) : PhaseKeeps s (storeRx i s) := by
  simp [PhaseKeeps, State.SameOperands]

theorem phaseKeeps_sel (s : State) : PhaseKeeps s (sel s) := by
  simp [PhaseKeeps, State.SameOperands]

theorem phaseKeeps_desel (s : State) : PhaseKeeps s (desel s) := by
  simp [PhaseKeeps, State.SameOperands]

theorem phaseKeeps_readPhase (is : List (Fin 256)) (s : State) : PhaseKeeps s (readPhase is s) := by
  induction is generalizing s with
  | nil => simp [PhaseKeeps, State.SameOperands, readPhase]
  | cons i is ih =>
    rw [readPhase_cons]
    exact ((phaseKeeps_xNext _ s).trans (phaseKeeps_storeRx i _)).trans (ih _)

theorem phaseKeeps_programPhase (is : List (Fin 256)) (s : State) :
    PhaseKeeps s (programPhase is s) ∧ (programPhase is s).rxbuf = s.rxbuf := by
  induction is generalizing s with
  | nil => simp [PhaseKeeps, State.SameOperands, programPhase]
  | cons i is ih =>
    rw [programPhase_cons]
    exact ⟨(phaseKeeps_xNext _ s).trans (ih _).1, by rw [(ih _).2, xNext_rxbuf]⟩

theorem phaseKeeps_addressPhase (op : Byte) (p : PageIndex) (s : State) :
    PhaseKeeps s (addressPhase op p s) ∧ (addressPhase op p s).rxbuf = s.rxbuf := by
  simp [PhaseKeeps, State.SameOperands, addressPhase]

/-- The data phase of a read as a run of DUMMY_BYTEs (R115). -/
theorem busRun_readPhase (is : List (Fin 256)) (s : State) :
    BusRun (List.replicate is.length s.cfg.dummyByte) s (readPhase is s) := by
  induction is generalizing s with
  | nil => exact BusRun.nil s
  | cons i is ih =>
    have h := ih (storeRx i (xFill s))
    rw [storeRx_cfg, xFill_cfg] at h
    rw [readPhase_cons, List.length_cons, List.replicate_succ]
    exact BusRun.cons (by simp) (by simp) (by simp) (by simp) (by simp) h

/-- The data phase of a program as a run of TXBUF's bytes (R116). -/
theorem busRun_programPhase (is : List (Fin 256)) (s : State) :
    BusRun (is.map fun i => s.txbuf[i]) s (programPhase is s) := by
  induction is generalizing s with
  | nil => exact BusRun.nil s
  | cons i is ih =>
    have h := ih (xNext s.txbuf[i] s)
    rw [xNext_txbuf] at h
    rw [programPhase_cons, List.map_cons]
    exact BusRun.cons (by simp) (by simp) (by simp) (by simp) (by simp) h

theorem readPhase_byteCnt (is : List (Fin 256)) (s : State) :
    (readPhase is s).byteCnt = s.byteCnt + is.length := by
  induction is generalizing s with
  | nil => rfl
  | cons i is ih => rw [readPhase_cons, ih]; simp; omega

theorem programPhase_byteCnt (is : List (Fin 256)) (s : State) :
    (programPhase is s).byteCnt = s.byteCnt + is.length := by
  induction is generalizing s with
  | nil => rfl
  | cons i is ih => rw [programPhase_cons, ih]; simp; omega

theorem readPhase_sck (is : List (Fin 256)) (s : State) (h : s.sck = false) : (readPhase is s).sck = false := by
  induction is generalizing s with
  | nil => exact h
  | cons i is ih => rw [readPhase_cons]; exact ih _ (by simp)

theorem programPhase_sck (is : List (Fin 256)) (s : State) (h : s.sck = false) :
    (programPhase is s).sck = false := by
  induction is generalizing s with
  | nil => exact h
  | cons i is ih => rw [programPhase_cons]; exact ih _ (by simp)

/-- A byte of RXBUF the data phase does not reach stays. -/
theorem readPhase_other (is : List (Fin 256)) (s : State) (j : Fin 256) (hj : j ∉ is) :
    (readPhase is s).rxbuf[j] = s.rxbuf[j] := by
  induction is generalizing s with
  | nil => rfl
  | cons i is ih =>
    simp only [List.mem_cons, not_or] at hj
    rw [readPhase_cons, ih _ hj.2]
    have : (i : Nat) ≠ j := fun h => hj.1 (Fin.ext h.symm)
    simp [this]

/-- The k-th byte received goes to the k-th index of the data phase (R115, R19). -/
theorem readPhase_rxbuf (is : List (Fin 256)) (hn : is.Nodup) (s : State) (k : Nat) (i : Fin 256)
    (hk : is[k]? = some i) :
    (Device.exchange s.cfg s.freeCtr (List.replicate is.length s.cfg.dummyByte) s.dev).1[k]? =
      some ((readPhase is s).rxbuf[i]) := by
  induction is generalizing s k with
  | nil => simp at hk
  | cons j is ih =>
    rw [List.nodup_cons] at hn
    rw [List.length_cons, List.replicate_succ, readPhase_cons]
    cases k with
    | zero =>
      simp only [List.getElem?_cons_zero, Option.some.injEq] at hk
      subst hk
      rw [readPhase_other _ _ _ hn.1]
      simp [Device.exchange, State.answer]
    | succ k =>
      rw [List.getElem?_cons_succ] at hk
      have h := ih hn.2 (storeRx j (xFill s)) k hk
      simp only [storeRx_cfg, xFill_cfg, storeRx_freeCtr, xFill_freeCtr, storeRx_dev, xFill_dev] at h
      rw [← h]
      simp only [Device.exchange, State.answer, List.getElem?_cons_succ]

/-! ### Whole frames -/

theorem BusRun.append {xs ys : List Byte} {s t u : State} (h : BusRun xs s t) (k : BusRun ys t u) :
    BusRun (xs ++ ys) s u := by
  obtain ⟨h1, h2, h3, h4, h5⟩ := h
  obtain ⟨k1, k2, k3, k4, k5⟩ := k
  rw [h1, h5, h3] at k3 k4
  have hl : (Device.exchange s.cfg s.freeCtr xs s.dev).1.length = xs.length := Device.exchange_length _ _ _ _
  refine ⟨k1.trans h1, k2.trans h2, ?_, ?_, ?_⟩
  · rw [k3, Device.exchange_append]
  · rw [k4, h4, Device.exchange_append]
    simp only [transfers]
    rw [List.zipWith_append hl.symm, List.reverse_append, List.append_assoc]
  · rw [k5, h5, List.length_append]; omega

theorem busRun_xNext (o : Byte) (s : State) : BusRun [o] s (xNext o s) :=
  BusRun.cons (by simp) (by simp) (by simp) (by simp) (by simp) (BusRun.nil _)

theorem busRun_xOpcode (o : Byte) (s : State) : BusRun [o] s (xOpcode o s) :=
  BusRun.cons (by simp) (by simp) (by simp) (by simp) (by simp) (BusRun.nil _)

/-- A byte received and stored off the bus. -/
theorem busRun_fill {b : Byte} {s u : State} (hb : b = s.cfg.dummyByte) (hcfg : u.cfg = s.cfg) (hcs : u.csN = s.csN) (hdev : u.dev = (xFill s).dev)
    (htr : u.trace = (xFill s).trace) (hctr : u.freeCtr = (xFill s).freeCtr) : BusRun [b] s u := by
  subst hb
  exact BusRun.cons hcfg hcs hdev (by rw [htr, xFill_trace]) hctr (BusRun.nil _)

/-- What a frame with the MOSI bytes `outs` leaves of the bus and of the registers no frame writes. -/
structure FrameRun (outs : List Byte) (s t : State) : Prop where
  trace : t.trace = (frameEvents outs (s.frameIn outs)).reverse ++ s.trace
  dev : t.dev = s.frameDev outs
  freeCtr : t.freeCtr = s.freeCtr + outs.length + 1
  csN : t.csN = true
  operands : s.SameOperands t

/-- A run of transfers between `Sel` and `Desel` is a frame; results stored on the way do not matter. -/
theorem FrameRun.of_run {outs : List Byte} {s u : State} (h : BusRun outs (sel s) u) (k : s.SameOperands u) :
    FrameRun outs s (desel u) := by
  obtain ⟨h1, h2, h3, h4, h5⟩ := h
  simp only [sel_cfg, sel_freeCtr, sel_dev, sel_trace] at h1 h3 h4 h5
  refine ⟨?_, ?_, ?_, rfl, ?_⟩
  · rw [desel_trace, h4]
    simp [frameEvents, State.frameIn]
  · rw [desel_dev, h3, h1, h5]; rfl
  · rw [desel_freeCtr, h5]
  · unfold State.SameOperands at *
    simpa using k

/-- The opcode and address bytes of a read or program frame. -/
theorem busRun_addressPhase (op : Byte) (p : PageIndex) (s : State) :
    BusRun [op, hiByte p, loByte p, 0x00] (sel s) (addressPhase op p s) :=
  ((BusRun.append (busRun_xOpcode op _) (busRun_xNext (hiByte p) _)).append (busRun_xNext (loByte p) _)).append
    (busRun_xNext 0x00 _)

/-- The frames of the opcode alone (R111 to R113). -/
theorem frameRun_opFrame (op : Byte) (s : State) :
    FrameRun [op] s (opFrame op s) ∧ s.SameResults (opFrame op s) := by
  refine ⟨FrameRun.of_run (busRun_xOpcode op (sel s)) ?_, ?_⟩ <;>
    simp [State.SameOperands, State.SameResults, opFrame]

theorem frameIn_length (s : State) (outs : List Byte) : (s.frameIn outs).length = outs.length :=
  Device.exchange_length _ _ _ _

/-- A status frame up to its first status byte, as a run of two transfers (R114). -/
theorem busRun_statusPhase (s : State) : BusRun [opRdsr1, s.cfg.dummyByte] (sel s) (statusPhase s) :=
  BusRun.append (busRun_xOpcode opRdsr1 (sel s))
    (BusRun.cons (by simp [statusPhase]) (by simp [statusPhase]) (by simp [statusPhase, State.answer])
      (by simp [statusPhase, State.answer]) (by simp [statusPhase]) (BusRun.nil _))

/-- The registers a status frame leaves alone up to its first status byte; the byte received second is the sample (R114). -/
theorem statusPhase_keeps (s : State) :
    s.SameOperands (statusPhase s) ∧ (statusPhase s).rxbuf = s.rxbuf ∧ (statusPhase s).id = s.id ∧
      s.frameIn [opRdsr1, s.cfg.dummyByte] = [(s.frameIn [opRdsr1, s.cfg.dummyByte]).headD 0, (statusPhase s).sample] := by
  refine ⟨?_, ?_, ?_, ?_⟩
  · simp [State.SameOperands, statusPhase]
  · simp [statusPhase]
  · simp [statusPhase]
  · simp [statusPhase, State.frameIn, Device.exchange, State.answer]

/-- The frame RDSR1 (R114): the status byte received is the sample. -/
theorem frameRun_rdsr1 (s : State) :
    FrameRun [opRdsr1, s.cfg.dummyByte] s (rdsr1Frame s) ∧
      s.frameIn [opRdsr1, s.cfg.dummyByte] = [(s.frameIn [opRdsr1, s.cfg.dummyByte]).headD 0, (rdsr1Frame s).sample] ∧
      (rdsr1Frame s).rxbuf = s.rxbuf ∧ (rdsr1Frame s).id = s.id := by
  have k := statusPhase_keeps s
  refine ⟨FrameRun.of_run (busRun_statusPhase s) k.1, ?_, ?_, ?_⟩
  · rw [rdsr1Frame, desel_sample]
    exact k.2.2.2
  · rw [rdsr1Frame, desel_rxbuf]
    exact k.2.1
  · rw [rdsr1Frame, desel_id]
    exact k.2.2.1

/-- The frame JEDEC_ID (R110): the three bytes received are ID. -/
theorem frameRun_jedecId (s : State) :
    FrameRun [opJedecId, s.cfg.dummyByte, s.cfg.dummyByte, s.cfg.dummyByte] s (jedecIdFrame s) ∧
      (s.frameIn [opJedecId, s.cfg.dummyByte, s.cfg.dummyByte, s.cfg.dummyByte]).tail = (jedecIdFrame s).id.toList ∧
      (jedecIdFrame s).rxbuf = s.rxbuf ∧ (jedecIdFrame s).sample = s.sample := by
  let u1 := storeId 0 (xFill (xOpcode opJedecId (sel s)))
  let u2 := storeId 1 (xFill u1)
  let u3 := storeId 2 (xFill u2)
  have h : BusRun (([opJedecId] ++ [s.cfg.dummyByte]) ++ [s.cfg.dummyByte] ++ [s.cfg.dummyByte]) (sel s) u3 :=
    (((busRun_xOpcode opJedecId (sel s)).append
      (busRun_fill (u := u1) (by simp) (by simp [u1]) (by simp [u1]) (by simp [u1]) (by simp [u1]) (by simp [u1]))).append
      (busRun_fill (s := u1) (u := u2) (by simp [u1]) (by simp [u2]) (by simp [u2]) (by simp [u2]) (by simp [u2])
        (by simp [u2]))).append
      (busRun_fill (s := u2) (u := u3) (by simp [u1, u2]) (by simp [u3]) (by simp [u3]) (by simp [u3]) (by simp [u3])
        (by simp [u3]))
  refine ⟨FrameRun.of_run h (by simp [State.SameOperands]), ?_, ?_, ?_⟩
  · apply List.ext_getElem
    · simp [frameIn_length]
    · intro k hk _
      have hk3 : k < 3 := by simpa [frameIn_length] using hk
      interval_cases k <;>
        simp [jedecIdFrame, State.frameIn, Device.exchange, State.answer]
  · simp [jedecIdFrame]
  · simp [jedecIdFrame]

/-- The frame READ (R115): the i-th data byte received is RXBUF[i]. -/
theorem frameRun_read (p : PageIndex) (s : State) :
    let outs := [opRead, hiByte p, loByte p, 0x00] ++ List.replicate 256 s.cfg.dummyByte
    FrameRun outs s (readFrame p s) ∧ (∀ i : Fin 256, (s.frameIn outs)[i.val + 4]? = some ((readFrame p s).rxbuf[i])) ∧
      (readFrame p s).id = s.id ∧ (readFrame p s).sample = s.sample := by
  intro outs
  have ha := busRun_addressPhase opRead p s
  have hk := (phaseKeeps_addressPhase opRead p s).1
  have hr := busRun_readPhase (List.finRange 256) (addressPhase opRead p s)
  have hr' := phaseKeeps_readPhase (List.finRange 256) (addressPhase opRead p s)
  rw [List.length_finRange, hk.1.1] at hr
  have hall := hk.trans hr'
  refine ⟨FrameRun.of_run (ha.append hr) hall.1, ?_, ?_, ?_⟩
  · intro i
    have hx := readPhase_rxbuf (List.finRange 256) (List.nodup_finRange 256) (addressPhase opRead p s) i.val i (by simp)
    rw [List.length_finRange, hk.1.1, ha.freeCtr, ha.dev] at hx
    simp only [sel_cfg, sel_freeCtr, sel_dev, List.length_cons, List.length_nil] at hx
    have hl : ∀ n c d, (Device.exchange c n [opRead, hiByte p, loByte p, 0x00] d).1.length = 4 :=
      fun n c d => Device.exchange_length _ _ _ _
    simp only [State.frameIn, outs, Device.exchange_append]
    rw [List.getElem?_append_right (by rw [hl]; omega), hl, Nat.add_sub_cancel]
    exact hx
  · rw [readFrame, desel_id]
    exact hall.2.1
  · rw [readFrame, desel_sample]
    exact hall.2.2

/-- The frame PP (R116): the bytes of TXBUF in order; no result. -/
theorem frameRun_pp (p : PageIndex) (s : State) :
    FrameRun ([opPp, hiByte p, loByte p, 0x00] ++ txBytes s) s (ppFrame p s) ∧ s.SameResults (ppFrame p s) := by
  have ha := busRun_addressPhase opPp p s
  have hk := phaseKeeps_addressPhase opPp p s
  have hr := busRun_programPhase (List.finRange 256) (addressPhase opPp p s)
  have hr' := phaseKeeps_programPhase (List.finRange 256) (addressPhase opPp p s)
  have htx : (List.finRange 256).map (fun i => (addressPhase opPp p s).txbuf[i]) = txBytes s := by
    rw [hk.1.1.2.2.1]
    apply List.ext_getElem
    · simp [txBytes]
    · intro k _ _
      simp [txBytes]
  rw [htx] at hr
  have hall := hk.1.trans hr'.1
  refine ⟨FrameRun.of_run (ha.append hr) hall.1, ?_, ?_, ?_⟩
  · rw [ppFrame, desel_rxbuf]
    exact hr'.2.trans hk.2
  · rw [ppFrame, desel_id]
    exact hall.2.1
  · rw [ppFrame, desel_sample]
    exact hall.2.2

end Sys2Proof.Machine
end

