-- ==== Sys2Proof/Laws/Responder.lean ====
section
/-! SUPPORT. What a run of bytes does to the reference responder (R59 to R68): a frame it only listens to, the address and data phase of a
read, and a device of which nothing is known. -/

namespace Sys2Proof.Machine

/-- The first byte of a frame is the opcode; it is only received (R59). -/
theorem Responder.answer_opcode (c : Config) (f op : Byte) (r : Responder) (h : r.frame = some []) :
    (Device.responder r).answer c f op = (f, .responder { r with frame := some [op] }) := by
  simp only [Device.answer, h, Responder.answerIn, List.nil_append]

/-- A transfer after the opcode of a status read is a status sample (R61, log 25). -/
theorem Responder.answer_status (c : Config) (f o : Byte) (args : List Byte) (r : Responder)
    (h : r.frame = some (opRdsr1 :: args)) :
    (Device.responder r).answer c f o =
      ((({ r with frame := some (opRdsr1 :: args ++ [o]) } : Responder).status c f).1,
        .responder (({ r with frame := some (opRdsr1 :: args ++ [o]) } : Responder).status c f).2) := by
  simp only [Device.answer, h, Responder.answerIn, if_true, List.cons_append]

/-- A frame that the responder only listens to: any frame but a status read while it is busy (R66), and while it is ready any but the three
that answer. -/
def Responder.listens (r : Responder) (op : Byte) : Prop :=
  op ≠ opRdsr1 ∧ (r.busy = true ∨ (op ≠ opJedecId ∧ op ≠ opRead))

/-- One more byte of a frame the responder only listens to. -/
theorem Responder.answer_listens (c : Config) (f o op : Byte) (args : List Byte) (r : Responder)
    (h : r.frame = some (op :: args)) (hl : r.listens op) :
    (Device.responder r).answer c f o = (f, .responder { r with frame := some (op :: args ++ [o]) }) := by
  simp only [Device.answer, h, Responder.answerIn, if_neg hl.1]
  rcases hl.2 with hb | ⟨h1, h2⟩
  · rw [if_pos hb]
  · simp only [if_neg h1, if_neg h2, ite_self]

/-- The rest of a frame the responder only listens to: the bytes are received and nothing else of it moves. -/
theorem Responder.exchange_listens (c : Config) (n : Nat) (op : Byte) (outs args : List Byte) (r : Responder)
    (h : r.frame = some (op :: args)) (hl : r.listens op) :
    (Device.exchange c n outs (.responder r)).2 = .responder { r with frame := some (op :: args ++ outs) } := by
  induction outs generalizing n args r with
  | nil =>
    cases r
    cases h
    simp [Device.exchange]
  | cons o os ih =>
    simp only [Device.exchange]
    rw [Responder.answer_listens c _ o op args r h hl]
    have := ih (n + 1) (args ++ [o]) { r with frame := some (op :: args ++ [o]) } (by simp) hl
    rw [this]
    simp

/-- A whole frame the responder only listens to. -/
theorem Responder.exchange_whole (c : Config) (n : Nat) (op : Byte) (outs : List Byte) (r : Responder) (hl : r.listens op) :
    (Device.exchange c n (op :: outs) (Device.responder r).opened).2 =
      .responder { r with frame := some (op :: outs) } := by
  simp only [Device.exchange, Device.opened]
  rw [Responder.answer_opcode c _ op _ rfl]
  exact Responder.exchange_listens c (n + 1) op outs [] { r with frame := some [op] } rfl hl

/-- The opcode and address bytes of a read from the ready responder (R59, R60). -/
theorem Responder.exchange_address (c : Config) (n : Nat) (a2 a1 a0 : Byte) (r : Responder) (hb : r.busy = false) :
    (Device.exchange c n [opRead, a2, a1, a0] (Device.responder r).opened).2 =
      .responder { r with frame := some [opRead, a2, a1, a0] } := by
  simp [Device.exchange, Device.opened, Device.answer, Responder.answerIn, hb]

/-- The answer to one data byte of a read inside the array (R60). -/
theorem Responder.answer_data (c : Config) (f o a2 a1 a0 : Byte) (ds : List Byte) (r : Responder) (hb : r.busy = false)
    (h : r.frame = some (opRead :: a2 :: a1 :: a0 :: ds)) (hin : (addressOf a2 a1 a0).toNat + ds.length < c.capacity) :
    (Device.responder r).answer c f o =
      (Memory.read r.mem ((addressOf a2 a1 a0).toNat + ds.length),
        .responder { r with frame := some (opRead :: a2 :: a1 :: a0 :: (ds ++ [o])) }) := by
  simp [Device.answer, h, Responder.answerIn, hb, Responder.readData, hin]

/-- The data phase of a read inside the array: the bytes of the array in ascending order, nothing of the array changed (R60, R45). -/
theorem Responder.exchange_data (c : Config) (n : Nat) (a2 a1 a0 : Byte) (outs ds : List Byte) (r : Responder)
    (hb : r.busy = false) (h : r.frame = some (opRead :: a2 :: a1 :: a0 :: ds))
    (hin : (addressOf a2 a1 a0).toNat + ds.length + outs.length ≤ c.capacity) :
    Device.exchange c n outs (.responder r) =
      ((List.range outs.length).map fun k => Memory.read r.mem ((addressOf a2 a1 a0).toNat + ds.length + k),
        .responder { r with frame := some (opRead :: a2 :: a1 :: a0 :: (ds ++ outs)) }) := by
  induction outs generalizing n ds r with
  | nil =>
    cases r
    cases h
    simp [Device.exchange]
  | cons o os ih =>
    simp only [List.length_cons] at hin
    simp only [Device.exchange]
    rw [Responder.answer_data c _ o a2 a1 a0 ds r hb h (by omega)]
    have := ih (n + 1) (ds ++ [o]) { r with frame := some (opRead :: a2 :: a1 :: a0 :: (ds ++ [o])) } hb rfl
      (by simp only [List.length_append, List.length_singleton]; omega)
    dsimp only
    rw [this]
    simp only [List.length_append, List.length_cons, List.length_nil, List.range_succ_eq_map, List.map_cons,
      List.map_map, List.append_assoc, List.singleton_append, Prod.mk.injEq, List.cons.injEq, Nat.add_zero, true_and, and_true]
    apply List.map_congr_left
    intro k _
    simp only [Function.comp, Nat.succ_eq_add_one]
    congr 1
    omega

/-- A device of which nothing is known stays one. -/
theorem Device.exchange_unknown (c : Config) (n : Nat) (outs : List Byte) :
    (Device.exchange c n outs Device.unknown).2 = Device.unknown := by
  induction outs generalizing n with
  | nil => rfl
  | cons o os ih =>
    simp only [Device.exchange]
    exact ih (n + 1)

/-- A read of the ready responder whose first data byte the array does not have leaves a device of which nothing is known (R68). -/
theorem Responder.exchange_beyond (c : Config) (n : Nat) (a2 a1 a0 o : Byte) (outs : List Byte) (r : Responder)
    (hb : r.busy = false) (hout : c.capacity ≤ (addressOf a2 a1 a0).toNat) :
    (Device.exchange c n ([opRead, a2, a1, a0] ++ o :: outs) (Device.responder r).opened).2 = Device.unknown := by
  have ha : ∀ f, (Device.responder { r with frame := some [opRead, a2, a1, a0] }).answer c f o = (f, Device.unknown) := by
    intro f
    simp [Device.answer, Responder.answerIn, hb, Responder.readData, Nat.not_lt.mpr hout]
  rw [Device.exchange_append]
  dsimp only
  rw [Responder.exchange_address c n a2 a1 a0 r hb]
  simp only [Device.exchange]
  rw [ha]
  exact Device.exchange_unknown c _ outs

/-- The page of the chip that a page index names lies inside the array (R56). -/
theorem hasPage_fits {c : Config} {p : PageIndex} (h : hasPage c p) : pageAddress p + 256 ≤ c.capacity := by
  unfold hasPage at h
  unfold pageAddress Config.capacity Config.nPages
  omega

/-- A page index beyond the chip names no byte of the array (R68). -/
theorem not_hasPage {c : Config} {p : PageIndex} (h : ¬ hasPage c p) : c.capacity ≤ pageAddress p := by
  unfold hasPage at h
  unfold pageAddress Config.capacity Config.nPages
  omega

/-- A whole read frame of a page of the chip, from the ready responder: the last 256 bytes received are the page in ascending order, and
nothing of the device moves but the bytes received (R60). -/
theorem Responder.exchange_page (c : Config) (n : Nat) (p : PageIndex) (b : Byte) (r : Responder) (hb : r.busy = false)
    (hp : hasPage c p) :
    let run := Device.exchange c n ([opRead, hiByte p, loByte p, 0x00] ++ List.replicate 256 b) (Device.responder r).opened
    run.1.drop 4 = (List.range 256).map (fun k => Memory.read r.mem (pageAddress p + k)) ∧
      run.2 = .responder { r with frame := some (opRead :: hiByte p :: loByte p :: 0x00 :: List.replicate 256 b) } := by
  intro run
  have hfit := hasPage_fits hp
  have h := Responder.exchange_data c (n + 4) (hiByte p) (loByte p) 0x00 (List.replicate 256 b) []
    { r with frame := some [opRead, hiByte p, loByte p, 0x00] } hb rfl
    (by rw [addressOf_toNat, List.length_replicate, List.length_nil]; omega)
  rw [addressOf_toNat, List.length_replicate] at h
  have hrun : run = _ := Device.exchange_append c n [opRead, hiByte p, loByte p, 0x00] (List.replicate 256 b) _
  rw [Responder.exchange_address c n _ _ _ r hb] at hrun
  rw [hrun]
  dsimp only
  have hl : (Device.exchange c n [opRead, hiByte p, loByte p, 0x00] (Device.responder r).opened).1.length = 4 :=
    Device.exchange_length _ _ _ _
  rw [List.drop_left' hl, show n + [opRead, hiByte p, loByte p, 0x00].length = n + 4 from rfl, h]
  simp only [List.length_nil, Nat.add_zero, List.nil_append, and_self]

end Sys2Proof.Machine
end

