-- ==== Sys2Proof/Laws/Sequencer.lean ====
section
/-! SUPPORT. Laws of the sequencer: SEQ_STEP is apart from everything a row does, so `goto` moves past every operation; the counted rows
RD5 and W8 as data phases; the five poll rows as one pass. -/

namespace Sys2Proof.Machine

variable (c c' : Command) (r r' : Row) (s : State)

/-! ### `goto` moves out past an operation -/

theorem sel_goto : sel (goto c r s) = goto c r (sel s) := rfl

theorem desel_goto : desel (goto c r s) = goto c r (desel s) := rfl

theorem xByte_goto (o : Byte) : xByte o (goto c r s) = goto c r (xByte o s) := by
  simp only [xByte, shiftByte_eq, State.answer]
  rfl

theorem xOpcode_goto (o : Byte) : xOpcode o (goto c r s) = goto c r (xOpcode o s) := by
  rw [xOpcode, xOpcode, ← xByte_goto]
  rfl

theorem xNext_goto (o : Byte) : xNext o (goto c r s) = goto c r (xNext o s) := by
  rw [xNext, xNext, ← xByte_goto]
  rfl

theorem xFill_goto : xFill (goto c r s) = goto c r (xFill s) := by
  rw [xFill, xFill, ← xNext_goto]
  rfl

theorem xSample_goto : xSample (goto c r s) = goto c r (xSample s) := by
  rw [xSample, xSample, ← xByte_goto]
  rfl

theorem storeId_goto (k : Fin 3) : storeId k (goto c r s) = goto c r (storeId k s) := rfl

theorem storeRx_goto (i : Fin 256) : storeRx i (goto c r s) = goto c r (storeRx i s) := rfl

theorem storeSample_goto : storeSample (goto c r s) = goto c r (storeSample s) := rfl

/-! ### The next SEQ_STEP replaces the one before -/

theorem goto_goto : goto c r (goto c' r' s) = goto c r s := rfl

theorem enterPoll_goto : enterPoll c (goto c' r' s) = enterPoll c s := rfl

theorem endCommand_goto : endCommand (goto c' r' s) = endCommand s := rfl

theorem afterDesel_goto : afterDesel c (goto c' r' s) = afterDesel c s := by
  unfold afterDesel
  rfl

theorem leavePoll_goto : leavePoll c (goto c' r' s) = leavePoll c s := by
  unfold leavePoll
  rfl

theorem pollTest_goto : pollTest c (goto c' r' s) = pollTest c s := by
  unfold pollTest raiseDeviceTimeout leavePoll State.sampleBusy
  rfl

/-- A state stands at the row its SEQ_STEP names. -/
theorem goto_self {c : Command} {r : Row} {s : State} (h : s.seq = .at c r) : goto c r s = s := by
  cases s
  cases h
  rfl

/-! ### Steps of the controller -/

theorem tick_goto : tick (goto c r s) = tickRow c r (goto c r s) := rfl

theorem ticks_add (m n : Nat) : ticks (m + n) s = ticks n (ticks m s) := by
  induction m generalizing s with
  | zero => simp [ticks]
  | succ m ih => rw [Nat.succ_add, ticks, ticks, ih]

/-- The poll rows up to the test are the first pass of the poll (R125; four rows where the frame stays open, log 15). -/
theorem ticks_poll : ticks (passRows s.cfg.pollFraming) (goto c .p0 s) = pollOnce c s := by
  cases h : s.cfg.pollFraming <;>
    simp [passRows, ticks, tick_goto, tickRow, sampledRow, afterDesel, sel_goto, xOpcode_goto, xSample_goto, storeSample_goto,
      desel_goto, goto_goto, pollTest_goto, pollOnce, statusPhase, rdsr1Frame, h]

/-- Rows P2 and P4 of a continuous poll are one more status byte of the open frame and the test (log 15). -/
theorem ticks_sample (h : s.cfg.pollFraming = .continuous) :
    ticks 2 (goto c .p2 s) = pollTest c (storeSample (xSample s)) := by
  simp [ticks, tick_goto, tickRow, sampledRow, xSample_goto, storeSample_goto, goto_goto, pollTest_goto, h]

/-- Row P3 of a continuous poll closes the frame and ends the command (log 15). -/
theorem tick_close (h : s.cfg.pollFraming = .continuous) : tick (goto c .p3 s) = endCommand (desel s) := by
  simp [tick_goto, tickRow, afterDesel, desel_goto, endCommand_goto, h]

/-- BYTE_CNT names the page byte (R24: i = BYTE_CNT − 4). -/
theorem dataIndex_add (k : Nat) (hk : k < 256) : dataIndex (k + 4) = ⟨k, hk⟩ := by
  unfold dataIndex
  apply Fin.ext
  simp
  omega

/-- Row RD5 with BYTE_CNT at the byte before page byte k (R122). -/
theorem tick_rd5 (k : Nat) (hk : k < 256) (h : s.byteCnt = k + 3) :
    tick (goto c .rd5 s) = goto c (if k < 255 then .rd5 else .rd6) (storeRx ⟨k, hk⟩ (xFill s)) := by
  have hb : (goto c .rd5 s).byteCnt + 1 = k + 4 := by rw [goto_byteCnt, h]
  rw [tick_goto]
  simp only [tickRow, xFill_goto, storeRx_goto, goto_goto, hb, dataIndex_add k hk]
  congr 1
  split <;> split <;> first | rfl | omega

/-- Row W8 with BYTE_CNT at the byte before page byte k (R123). -/
theorem tick_w8 (k : Nat) (hk : k < 256) (h : s.byteCnt = k + 3) :
    tick (goto c .w8 s) = goto c (if k < 255 then .w8 else .w9) (xNext s.txbuf[(⟨k, hk⟩ : Fin 256)] s) := by
  have hb : (goto c .w8 s).byteCnt + 1 = k + 4 := by rw [goto_byteCnt, h]
  rw [tick_goto]
  simp only [tickRow, xNext_goto, goto_goto, goto_txbuf, hb, dataIndex_add k hk]
  congr 1
  split <;> split <;> first | rfl | omega

theorem drop_finRange (k : Nat) (hk : k < 256) :
    (List.finRange 256).drop k = ⟨k, hk⟩ :: (List.finRange 256).drop (k + 1) := by
  rw [List.drop_eq_getElem_cons (by simpa using hk)]
  simp

/-- Row RD5, repeated from page byte k on, is the rest of the data phase of a read (R122). -/
theorem ticks_rd5 (n k : Nat) (hk : k + n = 255) (h : s.byteCnt = k + 3) :
    ticks (n + 1) (goto c .rd5 s) = goto c .rd6 (readPhase ((List.finRange 256).drop k) s) := by
  induction n generalizing k s with
  | zero =>
    have hk' : k = 255 := by omega
    subst hk'
    rw [ticks, tick_rd5 c s 255 (by omega) h, drop_finRange 255 (by omega), readPhase_cons]
    rfl
  | succ n ih =>
    rw [ticks, tick_rd5 c s k (by omega) h, if_pos (by omega), ih _ (k + 1) (by omega) (by simp [h]),
      drop_finRange k (by omega), readPhase_cons]

/-- Row W8, repeated from page byte k on, is the rest of the data phase of a program (R123). -/
theorem ticks_w8 (n k : Nat) (hk : k + n = 255) (h : s.byteCnt = k + 3) :
    ticks (n + 1) (goto c .w8 s) = goto c .w9 (programPhase ((List.finRange 256).drop k) s) := by
  induction n generalizing k s with
  | zero =>
    have hk' : k = 255 := by omega
    subst hk'
    rw [ticks, tick_w8 c s 255 (by omega) h, drop_finRange 255 (by omega), programPhase_cons]
    rfl
  | succ n ih =>
    rw [ticks, tick_w8 c s k (by omega) h, if_pos (by omega), ih _ (k + 1) (by omega) (by simp [h]),
      drop_finRange k (by omega), programPhase_cons]

end Sys2Proof.Machine
end

