-- ==== Sys2Proof/Laws/Exec.lean ====
section
/-! SUPPORT. The dispatch of each instruction as an equation, so that no proof unfolds `exec`; and what the test P4 does to the fields. -/

namespace Sys2Proof.Machine

theorem exec_jedecId (s : State) : exec .jedecId s = .next (jedecIdFrame s) := rfl

theorem exec_wren (s : State) : exec .wren s = .next (opFrame opWren s) := rfl

theorem exec_wrdi (s : State) : exec .wrdi s = .next (opFrame opWrdi s) := rfl

theorem exec_chipErase (s : State) : exec .chipErase s = .next (opFrame opChipErase s) := rfl

theorem exec_rdsr1 (s : State) : exec .rdsr1 s = .next (rdsr1Frame s) := rfl

theorem exec_read (p : PageIndex) (s : State) : exec (.read p) s = .next (readFrame p s) := rfl

theorem exec_pp (p : PageIndex) (s : State) : exec (.pp p) s = .next (ppFrame p s) := rfl

theorem exec_identify (s : State) : exec .identify s = .next (whenIdle .identify runIdentify s) := rfl

theorem exec_eraseChip (s : State) : exec .eraseChip s = .next (whenIdle .eraseChip runEraseChip s) := rfl

theorem exec_readPage (s : State) : exec .readPage s = .next (whenIdle .readPage runReadPage s) := rfl

theorem exec_writePage (s : State) : exec .writePage s = .next (whenIdle .writePage runWritePage s) := rfl

theorem exec_pollUntilReady (s : State) :
    exec .pollUntilReady s = .next (whenIdle .pollUntilReady runPollUntilReady s) := rfl

/-- An idle controller runs the command from its acceptance (R16). -/
theorem whenIdle_idle {c : Command} {run : State → State} {s : State} (h : s.ctrlBusy = false) :
    whenIdle c run s = run (accept c s) := by
  rw [whenIdle, h, if_neg Bool.false_ne_true]

/-- A busy controller ignores the command (R25). -/
theorem whenIdle_busy {c : Command} {run : State → State} {s : State} (h : s.ctrlBusy = true) : whenIdle c run s = s := by
  rw [whenIdle, h, if_pos rfl]

/-- An accepted command stands at its first row. -/
theorem accept_at (c : Command) (s : State) : accept c s = goto c (firstRow c) (accept c s) := rfl

/-- What the test P4 leaves alone: everything but SEQ_STEP, CTRL_BUSY, ERR_TIMEOUT and POLL_CNT (R125, R158). -/
theorem pollTest_eq (c : Command) (s : State) :
    pollTest c s =
      { s with
        seq := (pollTest c s).seq
        ctrlBusy := (pollTest c s).ctrlBusy
        errTimeout := (pollTest c s).errTimeout
        pollCnt := (pollTest c s).pollCnt } := by
  have hl : ∀ u : State, leavePoll c u = { u with seq := (leavePoll c u).seq, ctrlBusy := (leavePoll c u).ctrlBusy } := by
    intro u
    unfold leavePoll
    split <;> rfl
  unfold pollTest raiseDeviceTimeout
  cases s.cfg.pollLimit with
  | none =>
    dsimp only
    split
    · rfl
    · rw [hl]
  | some n =>
    dsimp only
    split
    · rw [hl]
    · split
      · rw [hl]
      · rfl

/-- POLL_CNT after the test P4: one more sample where there is a limit (R158). -/
def State.countedSamples (s : State) : Nat := if s.cfg.pollLimit = none then s.pollCnt else s.pollCnt + 1

/-- What the test P4 makes of a state (R125, R158): away from the poll, away with ERR_TIMEOUT set where the limit is reached, or again. -/
theorem pollTest_cases (c : Command) (s : State) :
    (s.sampleBusy = false ∧ pollTest c s = leavePoll c { s with pollCnt := s.countedSamples }) ∨
    (s.sampleBusy = true ∧ s.cfg.pollLimit = some (s.pollCnt + 1) ∧
      pollTest c s = raiseDeviceTimeout c { s with pollCnt := s.countedSamples }) ∨
    (s.sampleBusy = true ∧ s.cfg.pollLimit ≠ some (s.pollCnt + 1) ∧
      pollTest c s = goto c (againRow s.cfg.pollFraming) { s with pollCnt := s.countedSamples }) := by
  have hs : ({ s with pollCnt := s.pollCnt + 1 } : State).sampleBusy = s.sampleBusy := rfl
  unfold pollTest State.countedSamples
  cases hl : s.cfg.pollLimit with
  | none =>
    rw [if_pos rfl]
    cases hb : s.sampleBusy
    · exact .inl ⟨rfl, rfl⟩
    · exact .inr (.inr ⟨rfl, by simp, rfl⟩)
  | some n =>
    rw [if_neg (Option.some_ne_none n)]
    dsimp only
    rw [hs]
    cases hb : s.sampleBusy
    · exact .inl ⟨rfl, rfl⟩
    · rw [if_neg (by simp)]
      by_cases hn : s.pollCnt + 1 = n
      · exact .inr (.inl ⟨rfl, by rw [hn], if_pos hn⟩)
      · exact .inr (.inr ⟨rfl, fun h => hn (Option.some.inj h).symm, if_neg hn⟩)

/-- One pass of the poll is a status frame on the bus, left open in a continuous poll (log 15); the test puts nothing there. -/
theorem pollOnce_bus (c : Command) (s : State) :
    ∃ u, (s.cfg.pollFraming = .perSample ∧ u = rdsr1Frame s ∨ s.cfg.pollFraming = .continuous ∧ u = statusPhase s) ∧
      pollOnce c s = pollTest c u ∧ (pollOnce c s).trace = u.trace ∧ (pollOnce c s).dev = u.dev ∧
      (pollOnce c s).sample = u.sample ∧ (pollOnce c s).cfg = u.cfg := by
  unfold pollOnce
  cases s.cfg.pollFraming with
  | perSample =>
    refine ⟨_, .inl ⟨rfl, rfl⟩, rfl, ?_⟩
    dsimp only
    rw [pollTest_eq]
    exact ⟨rfl, rfl, rfl, rfl⟩
  | continuous =>
    refine ⟨_, .inr ⟨rfl, rfl⟩, rfl, ?_⟩
    dsimp only
    rw [pollTest_eq]
    exact ⟨rfl, rfl, rfl, rfl⟩

end Sys2Proof.Machine
end

