-- ==== Sys2Proof/Laws/PerInstr.lean ====
section
/-! SUPPORT. One law an instruction: it is well-formed, its first byte is its opcode, and on its own level its words decode back. -/

namespace Sys2Proof.Laws.OpcodeFirst
open Sys2Proof Sys2Proof.Machine

/-- The first byte of an instruction's words is its opcode byte or command code (R75, R85), the words of a frame's header are its opcode and
address bytes (R92), a command's are its code alone (R86), and the instruction is well-formed. -/
def Statement (i : Instr) : Prop :=
  i.wf = true ∧ (encode i).head? = some i.opcode ∧ (i.isCommand = true → encode i = [i.opcode]) ∧
    (i.isCommand = false → (encode i).length ≤ frameLength i.opcode)

theorem jedecId : Statement .jedecId := by unfold Statement; decide
theorem wren : Statement .wren := by unfold Statement; decide
theorem wrdi : Statement .wrdi := by unfold Statement; decide
theorem chipErase : Statement .chipErase := by unfold Statement; decide
theorem rdsr1 : Statement .rdsr1 := by unfold Statement; decide
theorem read (p : PageIndex) : Statement (.read p) := by
  refine ⟨rfl, rfl, ?_, ?_⟩ <;> simp [Instr.isCommand, encode, Instr.addressBytes, Instr.opcode, frameLength]
theorem pp (p : PageIndex) : Statement (.pp p) := by
  refine ⟨rfl, rfl, ?_, ?_⟩ <;> simp [Instr.isCommand, encode, Instr.addressBytes, Instr.opcode, frameLength]
theorem identify : Statement .identify := by unfold Statement; decide
theorem eraseChip : Statement .eraseChip := by unfold Statement; decide
theorem readPage : Statement .readPage := by unfold Statement; decide
theorem writePage : Statement .writePage := by unfold Statement; decide
theorem pollUntilReady : Statement .pollUntilReady := by unfold Statement; decide

end Sys2Proof.Laws.OpcodeFirst
end

