-- ==== Sys2Proof/Laws/Step.lean ====
section
/-! SUPPORT. What a step can do, said once (`step_cases`), and the induction behind every property of the bus side (`BusKept`). -/

namespace Sys2Proof.Machine

/-- Everything a step that answers `t` may have been. -/
inductive StepKind (s t : State) : Prop where
  | free (h : s.agenda = []) (ht : t = tick s)
  | run (rest : List HostMove) (h : s.agenda = .run :: rest) (ht : t = tick (withAgenda rest s))
  | waiting (rest : List HostMove) (h : s.agenda = .wait :: rest) (hb : s.ctrlBusy = true) (ht : t = tick s)
  | waited (rest : List HostMove) (h : s.agenda = .wait :: rest) (hb : s.ctrlBusy = false)
      (ht : t = hostRead 0x001 (withAgenda rest s))
  | reset (rest : List HostMove) (h : s.agenda = .reset :: rest) (ht : t = resetController (withAgenda rest s))
  | write (num : Nat) (v : BitVec 16) (rest : List HostMove) (h : s.agenda = .write num v :: rest)
      (ht : t = hostWrite num v (withAgenda rest s))
  | read (num : Nat) (rest : List HostMove) (h : s.agenda = .read num :: rest)
      (ht : t = hostRead num (withAgenda rest s))
  | call (code : Byte) (i : Instr) (rest : List HostMove) (h : s.agenda = .call code :: rest)
      (hd : decodeCommand code = .ok i) (ht : exec i (withAgenda (.wait :: rest) s) = .next t)
  | reserved (code : Byte) (rest : List HostMove) (h : s.agenda = .call code :: rest)
      (hd : ∀ i, decodeCommand code ≠ .ok i) (ht : t = withAgenda (.wait :: rest) s)
  | frame (header : List Byte) (i : Instr) (rest : List HostMove) (h : s.agenda = .frame header :: rest)
      (hb : s.ctrlBusy = false) (hd : decodeFrame header = .ok i) (ht : exec i (withAgenda rest s) = .next t)
  | noFrame (header : List Byte) (rest : List HostMove) (h : s.agenda = .frame header :: rest)
      (ht : t = withAgenda rest s)

/-- A step that answers a next state did one of the things `StepKind` lists. -/
theorem step_cases {s t : State} (h : step s = .next t) : StepKind s t := by
  unfold step fetch at h
  split at h
  · rename_i i s' hf
    split at hf
    all_goals try (cases hf)
    · rename_i rest ha
      unfold fetchWait at hf
      split at hf <;> cases hf
    · rename_i code rest ha
      unfold fetchCall at hf
      split at hf
      · rename_i j hd
        cases hf
        exact .call code i rest ha hd h
      · cases hf
    · rename_i header rest ha
      unfold fetchFrame at hf
      split at hf
      · cases hf
      · rename_i hb
        split at hf
        · rename_i j hd
          cases hf
          exact .frame header i rest ha (by simpa using hb) hd h
        · cases hf
  · rename_i s' hf
    cases h
    split at hf
    · rename_i ha
      cases hf
      exact .free ha rfl
    · rename_i rest ha
      cases hf
      exact .run rest ha rfl
    · rename_i rest ha
      unfold fetchWait at hf
      split at hf
      · rename_i hb
        cases hf
        exact .waiting rest ha hb rfl
      · rename_i hb
        cases hf
        exact .waited rest ha (by simpa using hb) rfl
    · rename_i rest ha
      cases hf
      exact .reset rest ha rfl
    · rename_i num v rest ha
      cases hf
      exact .write num v rest ha rfl
    · rename_i num rest ha
      cases hf
      exact .read num rest ha rfl
    · rename_i code rest ha
      unfold fetchCall at hf
      split at hf
      · cases hf
      · rename_i r hd
        cases hf
        exact .reserved code rest ha (by simp [hd]) rfl
    · rename_i header rest ha
      unfold fetchFrame at hf
      split at hf
      · cases hf
        exact .noFrame header rest ha rfl
      · split at hf
        · cases hf
        · cases hf
          exact .noFrame header rest ha rfl

/-! ### Properties of the bus side -/

/-- A property that the three transport primitives and the reset keep, and that speaks of nothing but the configuration, the device
and CS_N. -/
structure BusKept (P : State → Prop) : Prop where
  sel : ∀ s, P s → P (sel s)
  desel : ∀ s, P s → P (desel s)
  xByte : ∀ o s, P s → P (xByte o s)
  reset : ∀ s, P s → P (resetController s)
  quiet : ∀ s t : State, t.cfg = s.cfg → t.dev = s.dev → t.csN = s.csN → P s → P t

variable {P : State → Prop} (K : BusKept P)
include K

theorem BusKept.goto (c : Command) (r : Row) (s : State) (h : P s) : P (goto c r s) := K.quiet s _ rfl rfl rfl h

theorem BusKept.endCommand (s : State) (h : P s) : P (endCommand s) := K.quiet s _ rfl rfl rfl h

theorem BusKept.afterDesel (c : Command) (s : State) (h : P s) : P (afterDesel c s) :=
  K.quiet s _ (by simp) (by simp) (by simp) h

theorem BusKept.leavePoll (c : Command) (s : State) (h : P s) : P (leavePoll c s) :=
  K.quiet s _ (by simp) (by simp) (by simp) h

theorem BusKept.raiseDeviceTimeout (c : Command) (s : State) (h : P s) : P (raiseDeviceTimeout c s) :=
  K.quiet s _ (by simp) (by simp) (by simp) h

theorem BusKept.enterPoll (c : Command) (s : State) (h : P s) : P (enterPoll c s) := K.quiet s _ rfl rfl rfl h

theorem BusKept.accept (c : Command) (s : State) (h : P s) : P (accept c s) := K.quiet s _ rfl rfl rfl h

theorem BusKept.storeId (k : Fin 3) (s : State) (h : P s) : P (storeId k s) := K.quiet s _ rfl rfl rfl h

theorem BusKept.storeRx (i : Fin 256) (s : State) (h : P s) : P (storeRx i s) := K.quiet s _ rfl rfl rfl h

theorem BusKept.storeSample (s : State) (h : P s) : P (storeSample s) := K.quiet s _ rfl rfl rfl h

theorem BusKept.withAgenda (rest : List HostMove) (s : State) (h : P s) : P (withAgenda rest s) :=
  K.quiet s _ rfl rfl rfl h

theorem BusKept.hostRead (num : Nat) (s : State) (h : P s) : P (hostRead num s) := K.quiet s _ rfl rfl rfl h

theorem BusKept.xOpcode (o : Byte) (s : State) (h : P s) : P (xOpcode o s) :=
  K.xByte o _ (K.quiet s { s with byteCnt := 0 } rfl rfl rfl h)

theorem BusKept.xNext (o : Byte) (s : State) (h : P s) : P (xNext o s) :=
  K.xByte o _ (K.quiet s { s with byteCnt := s.byteCnt + 1 } rfl rfl rfl h)

theorem BusKept.xFill (s : State) (h : P s) : P (xFill s) := K.xNext _ s h

theorem BusKept.xSample (s : State) (h : P s) : P (xSample s) :=
  K.xByte _ _ (K.quiet s { s with byteCnt := 1 } rfl rfl rfl h)

theorem BusKept.readPhase (is : List (Fin 256)) (s : State) (h : P s) : P (readPhase is s) := by
  induction is generalizing s with
  | nil => exact h
  | cons i is ih =>
    rw [readPhase_cons]
    exact ih _ (K.storeRx i _ (K.xFill s h))

theorem BusKept.programPhase (is : List (Fin 256)) (s : State) (h : P s) : P (programPhase is s) := by
  induction is generalizing s with
  | nil => exact h
  | cons i is ih =>
    rw [programPhase_cons]
    exact ih _ (K.xNext _ s h)

theorem BusKept.opFrame (op : Byte) (s : State) (h : P s) : P (opFrame op s) :=
  K.desel _ (K.xOpcode op _ (K.sel s h))

theorem BusKept.statusPhase (s : State) (h : P s) : P (statusPhase s) :=
  K.storeSample _ (K.xSample _ (K.xOpcode _ _ (K.sel s h)))

theorem BusKept.rdsr1Frame (s : State) (h : P s) : P (rdsr1Frame s) := K.desel _ (K.statusPhase s h)

theorem BusKept.jedecIdFrame (s : State) (h : P s) : P (jedecIdFrame s) :=
  K.desel _ (K.storeId 2 _ (K.xFill _ (K.storeId 1 _ (K.xFill _ (K.storeId 0 _ (K.xFill _
    (K.xOpcode _ _ (K.sel s h))))))))

theorem BusKept.addressPhase (op : Byte) (p : PageIndex) (s : State) (h : P s) : P (addressPhase op p s) :=
  K.xNext _ _ (K.xNext _ _ (K.xNext _ _ (K.xOpcode _ _ (K.sel s h))))

theorem BusKept.readFrame (p : PageIndex) (s : State) (h : P s) : P (readFrame p s) :=
  K.desel _ (K.readPhase _ _ (K.addressPhase _ _ s h))

theorem BusKept.ppFrame (p : PageIndex) (s : State) (h : P s) : P (ppFrame p s) :=
  K.desel _ (K.programPhase _ _ (K.addressPhase _ _ s h))

theorem BusKept.pollTest (c : Command) (s : State) (h : P s) : P (pollTest c s) := by
  have h1 : P { s with pollCnt := s.pollCnt + 1 } := K.quiet s _ rfl rfl rfl h
  unfold Machine.pollTest
  cases s.cfg.pollLimit with
  | none =>
    dsimp only
    split
    · exact K.goto _ _ s h
    · exact K.leavePoll _ s h
  | some n =>
    dsimp only
    split
    · exact K.leavePoll _ _ h1
    · split
      · exact K.raiseDeviceTimeout _ _ h1
      · exact K.goto _ _ _ h1

theorem BusKept.pollOnce (c : Command) (s : State) (h : P s) : P (pollOnce c s) := by
  unfold Machine.pollOnce
  split
  · exact K.pollTest c _ (K.rdsr1Frame s h)
  · exact K.pollTest c _ (K.statusPhase s h)

theorem BusKept.whenIdle (c : Command) (run : State → State) (hr : ∀ s, P s → P (run s)) (s : State) (h : P s) :
    P (whenIdle c run s) := by
  unfold Machine.whenIdle
  split
  · exact h
  · exact hr _ (K.accept c s h)

theorem BusKept.runIdentify (s : State) (h : P s) : P (runIdentify s) := by
  have hj := K.jedecIdFrame s h
  unfold Machine.runIdentify
  split
  · exact K.pollOnce _ _ (K.enterPoll _ _ hj)
  · exact K.endCommand _ hj

theorem BusKept.runEraseChip (s : State) (h : P s) : P (runEraseChip s) :=
  K.pollOnce _ _ (K.enterPoll _ _ (K.opFrame _ _ (K.opFrame _ s h)))

theorem BusKept.runReadPage (s : State) (h : P s) : P (runReadPage s) :=
  K.pollOnce _ _ (K.enterPoll _ _ (K.readFrame _ s h))

theorem BusKept.runWritePage (s : State) (h : P s) : P (runWritePage s) :=
  K.pollOnce _ _ (K.enterPoll _ _ (K.ppFrame _ _ (K.opFrame _ s h)))

/-- An instruction keeps it. -/
theorem BusKept.exec {i : Instr} {s t : State} (ht : exec i s = .next t) (h : P s) : P t := by
  unfold Machine.exec at ht
  cases i with
  | jedecId => exact Host.Outcome.next.inj ht ▸ K.jedecIdFrame s h
  | wren => exact Host.Outcome.next.inj ht ▸ K.opFrame opWren s h
  | wrdi => exact Host.Outcome.next.inj ht ▸ K.opFrame opWrdi s h
  | chipErase => exact Host.Outcome.next.inj ht ▸ K.opFrame opChipErase s h
  | rdsr1 => exact Host.Outcome.next.inj ht ▸ K.rdsr1Frame s h
  | read p => exact Host.Outcome.next.inj ht ▸ K.readFrame p s h
  | pp p => exact Host.Outcome.next.inj ht ▸ K.ppFrame p s h
  | identify => exact Host.Outcome.next.inj ht ▸ K.whenIdle .identify _ K.runIdentify s h
  | eraseChip => exact Host.Outcome.next.inj ht ▸ K.whenIdle .eraseChip _ K.runEraseChip s h
  | readPage => exact Host.Outcome.next.inj ht ▸ K.whenIdle .readPage _ K.runReadPage s h
  | writePage => exact Host.Outcome.next.inj ht ▸ K.whenIdle .writePage _ K.runWritePage s h
  | pollUntilReady => exact Host.Outcome.next.inj ht ▸ K.whenIdle .pollUntilReady _ (K.pollOnce _) s h

/-- A row keeps it. -/
theorem BusKept.tickRow (c : Command) (r : Row) (s : State) (h : P s) : P (tickRow c r s) := by
  have hs := K.sel s h
  have hd := K.desel s h
  have hf := K.xFill s h
  have ho := fun o => K.xOpcode o s h
  have hn := fun o => K.xNext o s h
  cases r with
  | i5 =>
    unfold Machine.tickRow
    dsimp only
    split
    · exact K.enterPoll _ _ hd
    · exact K.endCommand _ hd
  | p4 => exact K.pollTest c s h
  | i0 | e0 | e3 | rd0 | w0 | w3 | p0 => exact K.goto _ _ _ hs
  | i1 | e1 | e4 | rd1 | w1 | w4 | p1 => exact K.goto _ _ _ (ho _)
  | i2 | i3 | i4 => exact K.goto _ _ _ (K.storeId _ _ hf)
  | e2 | w2 => exact K.goto _ _ _ hd
  | p3 => exact K.afterDesel _ _ hd
  | e5 | rd6 | w9 => exact K.enterPoll _ _ hd
  | rd2 | rd3 | rd4 | w5 | w6 | w7 | w8 => exact K.goto _ _ _ (hn _)
  | rd5 => exact K.goto _ _ _ (K.storeRx _ _ hf)
  | p2 => exact K.goto _ _ _ (K.storeSample _ (K.xSample s h))

theorem BusKept.tick (s : State) (h : P s) : P (tick s) := by
  unfold Machine.tick
  split
  · exact h
  · exact K.tickRow _ _ s h

theorem BusKept.startCommand (code : Byte) (s : State) (h : P s) : P (startCommand code s) := by
  unfold Machine.startCommand
  split
  · split
    · exact K.accept _ s h
    · exact h
  · exact h

theorem BusKept.hostWrite (num : Nat) (v : BitVec 16) (s : State) (h : P s) : P (hostWrite num v s) := by
  unfold Machine.hostWrite
  split
  · exact h
  · rcases regOf num with _ | (_ | _ | _ | i | i | i)
    · exact h
    · exact K.startCommand _ s h
    · exact h
    · exact K.quiet s { s with pageIndex := v } rfl rfl rfl h
    · exact h
    · exact K.quiet s { s with txbuf := s.txbuf.set i (v.setWidth 8) } rfl rfl rfl h
    · exact h

/-- A step keeps it. -/
theorem BusKept.step {s t : State} (ht : step s = .next t) (h : P s) : P t := by
  have hq := fun rest => K.withAgenda rest s h
  cases step_cases ht with
  | free _ ht => exact ht ▸ K.tick s h
  | run rest _ ht => exact ht ▸ K.tick _ (hq rest)
  | waiting rest _ _ ht => exact ht ▸ K.tick s h
  | waited rest _ _ ht => exact ht ▸ K.hostRead _ _ (hq rest)
  | reset rest _ ht => exact ht ▸ K.reset _ (hq rest)
  | write num v rest _ ht => exact ht ▸ K.hostWrite num v _ (hq rest)
  | read num rest _ ht => exact ht ▸ K.hostRead _ _ (hq rest)
  | call code i rest _ _ ht => exact K.exec ht (hq _)
  | reserved code rest _ _ ht => exact ht ▸ hq _
  | frame header i rest _ _ _ ht => exact K.exec ht (hq _)
  | noFrame header rest _ ht => exact ht ▸ hq _

end Sys2Proof.Machine
end

