-- ==== Sys2Proof/Tests/Slice0.lean ====
section
/-! SUPPORT. Small checks of the model: expected values are the spec's (the rule or vector is named), and one witness for the hypotheses of
every obligation that has some. -/

namespace Sys2Proof.Tests
open Sys2Proof Sys2Proof.Machine

/-! ### Helpers -/

/-- A configuration with a chip of 65536 pages and the identification bytes of the vectors (95_test_vectors, illustration). -/
def cfg : Config := { Config.default with lastPage := 0xFFFF, jedecMfr := 0xEF, jedecType := 0x40, jedecCap := 0x18 }

/-- An idle controller with the reference responder at its start state. -/
def base : State := { State.reset with cfg := cfg }

/-- An idle controller on a bus that answers the bytes given. -/
def scripted (l : List Byte) : State := { base with dev := .script l }

/-- A responder that is busy with an erase for so many more samples. -/
def erasing (n : Remaining) : Responder := { Responder.start with busy := true, wel := true, remaining := n, pending := some .erase }

/-- The same, on the bus of an idle controller. -/
def onBus (r : Responder) : State := { base with dev := .responder r }

/-- A controller that stands at a row. -/
def atRow (c : Command) (r : Row) (s : State) : State := { s with seq := .at c r, ctrlBusy := true }

/-- The bytes 0 to 255, as a device page and as TXBUF hold them in vectors V4.6 and V4.7. -/
def pattern : List Byte := (List.range 256).map fun k => BitVec.ofNat 8 k

/-- What is seen of the next state, where there is one. -/
def seen (o : Host.Outcome State Fault Refusal) (f : State → α) : Option α :=
  match o with
  | .next s => some (f s)
  | .fault _ => none
  | .refused _ => none

/-! ### Well-formedness -/

/-- R158: POLL_LIMIT = 0 is ill-formed, 1 is not. -/
theorem test_limit_zero_refused : ({ cfg with pollLimit := some 0 } : Config).wf = false ∧
    ({ cfg with pollLimit := some 1 } : Config).wf = true := by decide

/-- R26: a mask of no bit or of two bits is ill-formed; 0x80 (vector V5.8) is not. -/
theorem test_mask_refused : ({ cfg with busyMask := 0x00 } : Config).wf = false ∧
    ({ cfg with busyMask := 0x03 } : Config).wf = false ∧ ({ cfg with busyMask := 0x80 } : Config).wf = true := by decide

/-! ### Decoding: words written out from R75, R77, R79 and R85 -/

theorem test_decode_jedec_id : decodeFrame [0b10011111] = .ok .jedecId := by decide
theorem test_decode_wren : decodeFrame [0b00000110] = .ok .wren := by decide
theorem test_decode_wrdi : decodeFrame [0b00000100] = .ok .wrdi := by decide
theorem test_decode_chip_erase : decodeFrame [0b11000111] = .ok .chipErase := by decide
theorem test_decode_rdsr1 : decodeFrame [0b00000101] = .ok .rdsr1 := by decide
theorem test_decode_read : decodeFrame [0b00000011, 0b00010010, 0b00110100, 0b00000000] = .ok (.read 0x1234) := by decide
theorem test_decode_pp : decodeFrame [0b00000010, 0b10000000, 0b00000000, 0b00000000] = .ok (.pp 0x8000) := by decide
theorem test_decode_identify : decodeCommand 0b10011111 = .ok .identify := by decide
theorem test_decode_erase_chip : decodeCommand 0b11000111 = .ok .eraseChip := by decide
theorem test_decode_read_page : decodeCommand 0b00000011 = .ok .readPage := by decide
theorem test_decode_write_page : decodeCommand 0b00000010 = .ok .writePage := by decide
theorem test_decode_poll : decodeCommand 0b00000101 = .ok .pollUntilReady := by decide

/-- R77: A0 is the constant 0x00; R67, R88: 0x9E opens no frame; R76: no frame of 0x06 has two bytes. -/
theorem test_decode_frame_refused : decodeFrame [0x03, 0x12, 0x34, 0x01] = .error (.misalignedAddress 0x03) ∧
    decodeFrame [0x9E] = .error (.unknownOpcode 0x9E) ∧ decodeFrame [0x06, 0x00] = .error (.wrongLength 0x06) ∧
    decodeFrame [] = .error .emptyFrame := by decide

/-- Vector V4.10: 0x06 and 0x04 are no host commands. -/
theorem test_decode_reserved : decodeCommand 0x06 = .error (.reservedCommand 0x06) ∧
    decodeCommand 0x04 = .error (.reservedCommand 0x04) := by decide

/-- R92: the header of a read or program, most significant byte first; a word that its match and mask refuse is no row's. -/
theorem test_table_words : decodeTableWord 32 0x03123400 = some (.read 0x1234) ∧
    decodeTableWord 32 0x02FFFF00 = some (.pp 0xFFFF) ∧ decodeTableWord 8 0x06 = some .wren ∧
    decodeTableWord 8 0xC7 = some .eraseChip ∧ decodeTableWord 32 0x00341203 = none ∧
    decodeTableWord 32 0x0000009F = none ∧ decodeTableWord 8 0x9E = none := by decide

/-! ### Transport -/

/-- Vector V1.1: the pins through X(06), SCK and MOSI after each change. -/
theorem test_wave_wren : byteWave 0x06 0x00 base =
    [(false, false), (true, false), (false, false), (false, false), (true, false), (false, false),
     (false, false), (true, false), (false, false), (false, false), (true, false), (false, false),
     (false, false), (true, false), (false, false), (false, true), (true, true), (false, true),
     (false, true), (true, true), (false, true), (false, false), (true, false), (false, false)] := by decide

/-- R102: MISO 1,1,1,0,1,1,1,1 is 0xEF; MOSI ends holding out[0] (R13; vector V1, 0x9F ends at 1). -/
theorem test_byte_in : (shiftByte 0x9F 0xEF base).shi = 0xEF ∧ (shiftByte 0x9F 0xEF base).mosi = true ∧
    (shiftByte 0x9F 0xEF base).sck = false := by decide

/-! ### Wire frames, one step each -/

/-- Vector V3, first row, the bus driven by hand. -/
theorem test_jedec_id : seen (exec .jedecId (scripted [0x55, 0xEF, 0x40, 0x18])) (fun t => (t.id, t.trace.length)) =
    some (#v[0xEF, 0x40, 0x18], 6) := by decide

/-- Vector V4.2: MISO stuck at 1 gives FF FF FF and no error. -/
theorem test_jedec_id_stuck : seen (exec .jedecId (scripted [0xFF, 0xFF, 0xFF, 0xFF])) State.id = some #v[0xFF, 0xFF, 0xFF] := by
  decide

/-- Vector V3 and R63: `Sel, X(06,..), Desel`, and the responder's latch is set. -/
theorem test_wren : seen (exec .wren (scripted [0x00])) State.trace = some [.desel, .x 0x06 0x00, .sel] ∧
    seen (exec .wren base) State.dev = some (.responder { Responder.start with wel := true }) := by decide

/-- R63: write-disable clears the latch. -/
theorem test_wrdi : seen (exec .wrdi (onBus { Responder.start with wel := true })) State.dev = some (.responder Responder.start) := by
  decide

/-- R64, and vector V6.4: with the latch clear an erase frame has no effect. -/
theorem test_chip_erase : seen (exec .chipErase base) State.dev = some (.responder Responder.start) ∧
    seen (exec .chipErase (onBus { Responder.start with wel := true, draws := [.samples 2] })) State.dev =
      some (.responder (erasing (.samples 2))) := by decide

/-- R114: the status byte received is the sample; R61: with no busy sample left the erase is finished before the answer. -/
theorem test_rdsr1 : seen (exec .rdsr1 (scripted [0x55, 0x03])) State.sample = some 0x03 ∧
    seen (exec .rdsr1 (onBus (erasing (.samples 0)))) State.dev =
      some (.responder { Responder.start with remaining := .samples 0 }) := by decide

/-- Vectors V3 and V4.6: 262 events; the fifth byte received goes to RXBUF[0]. -/
theorem test_read : seen (exec (.read 0x1234) (scripted ([9, 9, 9, 9] ++ pattern)))
    (fun t => (t.rxbuf[0], t.rxbuf[1], t.rxbuf[255], t.trace.length)) = some (0x00, 0x01, 0xFF, 262) := by decide +kernel

/-- Vector V3.3: 02 hi lo 00, then TXBUF[0] = 0x02 as data. -/
theorem test_pp : seen (exec (.pp 0x1234) { scripted (List.replicate 260 0) with txbuf := (Vector.replicate 256 0xA5).set 0 0x02 })
    (fun t => (t.trace.reverse.take 7, t.trace.length)) =
    some ([.sel, .x 0x02 0, .x 0x12 0, .x 0x34 0, .x 0x00 0, .x 0x02 0, .x 0xA5 0], 262) := by decide +kernel

/-- Vector V6: A5 & 5A = 00, F0 & 3C = 30, FF & A5 = A5 (R62). -/
theorem test_program_and : Memory.program [(0, 0xA5), (1, 0xF0)] 0 [0x5A, 0x3C, 0xA5] = [(0, 0x00), (1, 0x30), (2, 0xA5)] := by
  decide

/-- R40, R56: writing an erased byte's value leaves no entry. -/
theorem test_write_canonical : Memory.write [(3, 0x12)] 3 0xFF = [] ∧ Memory.write [(3, 0x12)] 2 0x07 = [(2, 0x07), (3, 0x12)] := by
  decide

/-! ### Host commands -/

/-- Vector V4.1. -/
theorem test_identify : seen (exec .identify (scripted [0x55, 0xEF, 0x40, 0x18])) (fun t => (t.id, t.ctrlBusy, t.seq)) =
    some (#v[0xEF, 0x40, 0x18], false, .idle) := by decide

/-- Vector V4.4: three frames, ten events, the poll ending at its first sample. -/
theorem test_erase_chip : seen (exec .eraseChip (scripted [0, 0, 0, 0])) (fun t => (t.trace.length, t.ctrlBusy)) =
    some (10, false) := by decide

/-- Vector V4.5: 266 events, every byte of RXBUF 0xFF, the command ended. -/
theorem test_read_page : seen (exec .readPage { scripted (List.replicate 260 0xFF ++ [0, 0]) with pageIndex := 0x0001 })
    (fun t => (t.trace.length, t.rxbuf.toList.all (· == 0xFF), t.ctrlBusy, t.pageIndex)) = some (266, true, false, 0x0001) := by
  decide +kernel

/-- Vector V4.7 up to its first busy sample: 3 + 262 + 4 events, the command left at row P0 with CTRL_BUSY = 1. -/
theorem test_write_page : seen (exec .writePage { scripted (List.replicate 262 0 ++ [0x01]) with pageIndex := 0x0002 })
    (fun t => (t.trace.length, t.seq, t.ctrlBusy)) = some (269, .at .writePage .p0, true) := by decide +kernel

/-- Vectors V5.3 and V5.8: bit 1 is masked off under 0x01; under 0x80 the sample 0x80 is busy. -/
theorem test_poll : seen (exec .pollUntilReady (scripted [0x00, 0x02])) State.seq = some .idle ∧
    seen (exec .pollUntilReady { scripted [0x00, 0x80] with cfg := { cfg with busyMask := 0x80 } }) State.seq =
      some (.at .pollUntilReady .p0) := by decide

/-- D7's alternative framing (log 15): two samples in one frame, then the closing row. -/
def continuous (s : State) : State := { s with cfg := { s.cfg with pollFraming := .continuous } }
theorem test_poll_continuous : (ticks 7 (atRow .eraseChip .p0 (continuous (scripted [0x00, 0x01, 0x02])))).seq = .idle ∧
    (ticks 7 (atRow .eraseChip .p0 (continuous (scripted [0x00, 0x01, 0x02])))).trace =
      [.desel, .x 0x00 0x02, .x 0x00 0x01, .x 0x05 0x00, .sel] := by decide
theorem test_poll_continuous_call : seen (exec .pollUntilReady (continuous (scripted [0x00, 0x02])))
    (fun t => (t.seq, t.ctrlBusy, t.csN)) = some (.at .pollUntilReady .p3, true, false) := by decide

/-- Vector V5.9, one sample: with POLL_LIMIT = 1 a busy sample ends the command with ERR_TIMEOUT = 1. -/
theorem test_poll_limit : seen (exec .pollUntilReady { scripted [0x00, 0xFF] with cfg := { cfg with pollLimit := some 1 } })
    (fun t => (t.seq, t.ctrlBusy, t.ctrlStatus)) = some (.idle, false, 0x02) := by decide

/-- Vector V4.9: writes while a command runs are ignored. -/
theorem test_write_busy : hostWrite 0x000 0x03 (atRow .eraseChip .p2 base) = atRow .eraseChip .p2 base ∧
    hostWrite 0x002 0x0007 (atRow .eraseChip .p2 base) = atRow .eraseChip .p2 base := ⟨rfl, rfl⟩

/-- R29: TXBUF[5] takes the low byte and reads it back. -/
theorem test_write_txbuf : readValue 0x105 (hostWrite 0x105 0x12A5 base) = 0x00A5 ∧ readValue 0x104 (hostWrite 0x105 0x12A5 base) = 0 := by
  decide

/-! ### The first step after reset -/

theorem test_first_step_identify : seen (step (State.reset.withFetchWord 8 0x9F)) State.agenda = some [.wait] := by decide
theorem test_first_step_wrdi : seen (step (State.reset.withFetchWord 8 0x04)) (fun t => (t.trace.length, t.agenda)) =
    some (3, []) := by decide

/-! ### Witnesses: states and operands that meet the hypotheses of each obligation, all together -/

theorem wit_FrameLengthByOpcode : (Instr.pp 0xFFFF).isCommand = false := rfl
theorem wit_ByteTransferOnThePins : base.sck = false := rfl
theorem wit_FramesSendTheirBytes : ([.jedecId, .wren, .wrdi, .chipErase, .rdsr1, .read 0, .pp 0xFFFF] : List Instr).all
    (fun i => !i.isCommand) = true := by decide
theorem wit_SuppliedAnswersAreReceived : Instr.wren.isCommand = false ∧ [(0x11 : Byte)].length = (mosiBytes (scripted [0x11, 0x22]) .wren).length ∧
    (scripted [0x11, 0x22]).dev = .script ([0x11] ++ [0x22]) := ⟨rfl, rfl, rfl⟩
theorem wit_JedecIdFrame : (scripted [0x55, 0xEF, 0x40, 0x18]).dev = .script (0x55 :: 0xEF :: 0x40 :: 0x18 :: []) := rfl
theorem wit_OpcodeOnlyFrames : (.wrdi : Instr) = .wren ∨ (.wrdi : Instr) = .wrdi ∨ (.wrdi : Instr) = .chipErase := by decide
theorem wit_StatusFrame : (scripted [0x55, 0x03]).dev = .script (0x55 :: 0x03 :: []) := rfl
theorem wit_FramesKeepRegisters : ∃ t, exec .wren base = .next t ∧ Instr.wren.isCommand = false ∧ (∀ p, Instr.wren ≠ .read p) ∧
    Instr.wren ≠ .jedecId ∧ Instr.wren ≠ .rdsr1 := ⟨_, rfl, rfl, by simp, by decide, by decide⟩

/-- The last page of the chip, and the first page beyond a chip of 4096 (vector V2). -/
theorem wit_hasPage : hasPage cfg 0xFFFF ∧ hasPage { cfg with lastPage := 0x0FFF } 0x0FFF ∧
    ¬ hasPage { cfg with lastPage := 0x0FFF } 0x1000 := by
  unfold hasPage
  decide

theorem wit_readyResponder : base.readyResponder Responder.start := ⟨rfl, rfl⟩

theorem wit_FramesKeepTheArray : ∃ t, exec (.pp 0xFFFF) base = .next t ∧ ∀ r, base.dev = .responder r →
    ((.pp 0xFFFF : Instr) = .rdsr1 → ¬ (r.busy = true ∧ r.remaining = .samples 0)) ∧
    ∀ p, (.pp 0xFFFF : Instr) = .read p ∨ (.pp 0xFFFF : Instr) = .pp p → r.busy = true ∨ hasPage base.cfg p := by
  refine ⟨_, exec_pp _ _, fun r _ => ⟨fun h => by simp at h, fun p h => .inr ?_⟩⟩
  have hp : p = 0xFFFF := by simpa [eq_comm] using h
  exact hp ▸ wit_hasPage.1
theorem wit_FramesKeepTheArray_status : ∃ t, exec .rdsr1 (onBus (erasing (.samples 1))) = .next t ∧
    ¬ ((erasing (.samples 1)).busy = true ∧ (erasing (.samples 1)).remaining = .samples 0) := ⟨_, exec_rdsr1 _, by decide⟩

theorem wit_IdentifyAndStatusAnswers : base.dev = .responder Responder.start ∧ Responder.start.busy = false ∧ cfg.busyMask ≠ 0 ∧
    (erasing (.samples 0)).busy = true ∧ (erasing (.samples 0)).remaining = .samples 0 ∧ (erasing (.samples 1)).busy = true ∧
    (erasing (.samples 1)).remaining ≠ .samples 0 ∧ (onBus (erasing (.samples 1))).dev = .responder (erasing (.samples 1)) := by
  refine ⟨rfl, rfl, ?_, rfl, rfl, rfl, ?_, rfl⟩ <;> decide
theorem wit_ReadReturnsThePage : base.readyResponder Responder.start ∧ hasPage base.cfg 0xFFFF := ⟨⟨rfl, rfl⟩, wit_hasPage.1⟩
theorem wit_WriteEnableLatch : base.readyResponder Responder.start := ⟨rfl, rfl⟩
theorem wit_ProgramAndEraseStart : base.readyResponder Responder.start ∧ Responder.start.wel = false ∧ hasPage base.cfg 0xFFFF ∧
    (onBus { Responder.start with wel := true }).readyResponder { Responder.start with wel := true } :=
  ⟨⟨rfl, rfl⟩, rfl, wit_hasPage.1, ⟨rfl, rfl⟩⟩
theorem wit_BusyDeviceIgnoresFrames : Instr.wren.isCommand = false ∧ Instr.wren ≠ .rdsr1 ∧
    (onBus (erasing .forever)).dev = .responder (erasing .forever) ∧ (erasing .forever).busy = true := by
  refine ⟨rfl, ?_, rfl, rfl⟩
  decide
theorem wit_BeyondTheChipNothingIsKnown : ({ base with cfg := { cfg with lastPage := 0x0FFF } } : State).readyResponder Responder.start ∧
    ¬ hasPage { cfg with lastPage := 0x0FFF } 0x1000 := ⟨⟨rfl, rfl⟩, wit_hasPage.2.2⟩
theorem wit_ProgramTwiceIsProgramOnce : Memory.wf [(3, 0x12), (7, 0x00)] = true := by decide

theorem wit_idle : base.ctrlBusy = false ∧ base.cfg.identifyPolls = false ∧
    ({ base with cfg := { cfg with identifyPolls := true } } : State).cfg.identifyPolls = true ∧
    ({ base with cfg := { cfg with identifyPolls := true } } : State).ctrlBusy = false := ⟨rfl, rfl, rfl, rfl⟩
theorem wit_CommandsFollowTheirStepTables : commandOf .readPage = some .readPage ∧ base.ctrlBusy = false := ⟨rfl, rfl⟩
theorem wit_CommandAcceptance : base.ctrlBusy = false ∧ ((0xC7 : Byte), Command.eraseChip, Row.e0) ∈
    [(0x9F#8, Command.identify, Row.i0), (0xC7#8, .eraseChip, .e0), (0x03#8, .readPage, .rd0), (0x02#8, .writePage, .w0),
      (0x05#8, .pollUntilReady, .p0)] ∧
    (0x06 : Byte) ∉ [0x9F#8, 0xC7#8, 0x03#8, 0x02#8, 0x05#8] := by decide
theorem wit_CommandsWhileBusyAreIgnored : Instr.readPage.isCommand = true ∧ (atRow .eraseChip .p2 base).ctrlBusy = true := ⟨rfl, rfl⟩
theorem wit_CommandsKeepTheArray : base.ctrlBusy = false ∧ base.readyResponder Responder.start ∧ base.memWf = true ∧
    hasPage base.cfg base.pageIndex ∧ ∃ t, exec .writePage base = .next t := by
  refine ⟨rfl, ⟨rfl, rfl⟩, rfl, ?_, _, exec_writePage _⟩
  unfold hasPage
  decide
theorem wit_CommandsKeepTheArray_boundary : pageAddress 0x0002 = 512 ∧ (511 < pageAddress 0x0002 ∧ pageAddress 0x0002 + 256 ≤ 768) := by
  decide
/-- An idle controller with POLL_LIMIT = 4 on a responder whose next operation takes three busy samples. -/
def threeBusy : State :=
  { onBus { Responder.start with draws := [.samples 3] } with cfg := { cfg with pollLimit := some 4 } }
theorem wit_WrittenPageReadsBack : threeBusy.ctrlBusy = false ∧
    threeBusy.readyResponder { Responder.start with draws := [.samples 3] } ∧
    ({ Responder.start with draws := [.samples 3] } : Responder).draws = .samples 3 :: [] ∧ threeBusy.cfg.busyMask ≠ 0 ∧
    (∀ n, threeBusy.cfg.pollLimit = some n → 3 < n) ∧ threeBusy.memWf = true ∧ hasPage threeBusy.cfg threeBusy.pageIndex := by
  refine ⟨rfl, ⟨rfl, rfl⟩, rfl, by decide, by simp [threeBusy], rfl, ?_⟩
  unfold hasPage
  decide

theorem wit_OneRowOneBusEvent : (atRow .eraseChip .p4 base).seq = .at .eraseChip .p4 ∧ rowEvents base .p4 = [] ∧
    rowEvents base .e2 = [.desel] ∧ base.seq = .idle := ⟨rfl, rfl, rfl, rfl⟩
theorem wit_PollIteration : (atRow .eraseChip .p0 base).seq = .at .eraseChip .p0 ∧ (atRow .eraseChip .p0 base).cfg.pollLimit = none ∧
    base.cfg.pollFraming = .perSample := ⟨rfl, rfl, rfl⟩
theorem wit_ContinuousPollRows : (continuous base).cfg.pollFraming = .continuous ∧
    (atRow .eraseChip .p0 (continuous base)).seq = .at .eraseChip .p0 ∧ (atRow .eraseChip .p2 (continuous base)).seq = .at .eraseChip .p2 ∧
    (atRow .eraseChip .p3 (continuous base)).seq = .at .eraseChip .p3 := ⟨rfl, rfl, rfl, rfl⟩
theorem wit_PollTestRow : (atRow .eraseChip .p4 base).seq = .at .eraseChip .p4 := rfl
theorem wit_PollEndsAtTheFirstClearSample :
    (atRow .eraseChip .p0 (scripted [0, 0x03, 0, 0xFE, 0x77])).seq = .at .eraseChip .p0 ∧ cfg.pollLimit = none ∧
    (∀ q ∈ [((0 : Byte), (0x03 : Byte))], busyBit cfg.busyMask q.2 = true) ∧ busyBit cfg.busyMask 0xFE = false ∧
    (scripted [0, 0x03, 0, 0xFE, 0x77]).dev =
      .script ([((0 : Byte), (0x03 : Byte))].flatMap (fun q => [q.1, q.2]) ++ 0 :: 0xFE :: [0x77]) := ⟨rfl, rfl, by simp [busyBit, cfg, Config.default], rfl, rfl⟩
theorem wit_PollEndsAtTheFirstClearSample_continuous :
    (atRow .eraseChip .p0 (continuous (scripted [0, 0x03, 0xFE, 0x77]))).cfg.pollFraming = .continuous ∧
    (continuous (scripted [0, 0x03, 0xFE, 0x77])).dev =
      .script (0 :: [((0 : Byte), (0x03 : Byte))].map (fun q => q.2) ++ 0xFE :: [0x77]) := ⟨rfl, rfl⟩
theorem wit_StuckDeviceHangsForever : (atRow .eraseChip .p0 (onBus (erasing .forever))).agenda = [] ∧
    (atRow .eraseChip .p0 (onBus (erasing .forever))).seq = .at .eraseChip .p0 ∧
    (atRow .eraseChip .p0 (onBus (erasing .forever))).ctrlBusy = true ∧ cfg.pollLimit = none ∧ cfg.busyMask ≠ 0 ∧
    (atRow .eraseChip .p0 (onBus (erasing .forever))).dev = .responder (erasing .forever) ∧ (erasing .forever).busy = true ∧
    (erasing .forever).remaining = .forever ∧ cfg.pollFraming = .perSample ∧
    (continuous (onBus (erasing .forever))).cfg.pollFraming = .continuous := by decide
theorem wit_PollLimitGivesUp : ∃ s : State, s.seq = .at .eraseChip .p0 ∧ s.pollCnt = 0 ∧ s.cfg.pollLimit = some (2 + 1) ∧
    s.cfg.busyMask ≠ 0 ∧ s.dev = .responder (erasing .forever) ∧ (erasing .forever).busy = true ∧
    (erasing .forever).remaining = .forever :=
  ⟨{ atRow .eraseChip .p0 (onBus (erasing .forever)) with cfg := { cfg with pollLimit := some 3 } }, rfl, rfl, rfl, by decide, rfl, rfl, rfl⟩

/-- The unassigned numbers at the ends of their ranges (R29), beside the assigned ones next to them. -/
theorem wit_RegisterMap : base.ctrlBusy = false ∧ (atRow .eraseChip .p2 base).ctrlBusy = true ∧ regOf 0x003 = none ∧ regOf 0x007 = none ∧ regOf 0x0FF = none ∧ regOf 0x300 = none ∧
    regOf 0x002 = some .pageIndex ∧ regOf 0x006 = some (.id 2) ∧ regOf 0x100 = some (.txbuf 0) ∧ regOf 0x1FF = some (.txbuf 255) ∧
    regOf 0x200 = some (.rxbuf 0) ∧ regOf 0x2FF = some (.rxbuf 255) := by decide
theorem wit_HostAccessWhileBusy : (atRow .eraseChip .p2 base).ctrlBusy = true ∧
    ({ base with agenda := [.read 0x001] } : State).agenda = .read 0x001 :: [] ∧
    ({ base with agenda := [.write 0x002 7] } : State).agenda = .write 0x002 7 :: [] := ⟨rfl, rfl, rfl⟩
theorem wit_ReservedCommandsAreIgnored : (0x06 : Byte) ∉ [0x02#8, 0x03#8, 0x05#8, 0x9F#8, 0xC7#8] ∧
    ({ base with agenda := [.write 0x000 ((0x06 : Byte).setWidth 16)] } : State).agenda = .write 0x000 ((0x06 : Byte).setWidth 16) :: [] ∧
    base.ctrlBusy = false := by decide
theorem wit_ResetAtAnyTime : ({ atRow .eraseChip .p0 base with agenda := [.reset] } : State).agenda = .reset :: [] ∧
    ({ atRow .eraseChip .p0 base with agenda := [.reset] } : State).csN = true := ⟨rfl, rfl⟩

/-- A reset in an open frame: a read frame after its opcode, an erase frame after its opcode, and an identify frame before it. -/
theorem wit_ResetAtAnyTime_open : (∃ s : State, s.agenda = .reset :: [] ∧ s.csN = false ∧ s.seq = .at .readPage .rd2 ∧
      ∃ r, s.dev = .responder r ∧ r.frame = some (0x03 :: [])) ∧
    (∃ s : State, s.agenda = .reset :: [] ∧ s.csN = false ∧ ∃ r, s.dev = .responder r ∧ r.frame = some (0xC7 :: [])) ∧
    (∃ s : State, s.agenda = .reset :: [] ∧ s.csN = false ∧ s.seq = .at .identify .i1 ∧ ∃ r, s.dev = .responder r ∧ r.frame = some []) :=
  ⟨⟨{ xOpcode opRead (sel (atRow .readPage .rd2 base)) with agenda := [.reset] }, rfl, rfl, rfl, _, rfl, rfl⟩,
    ⟨{ xOpcode opChipErase (sel base) with agenda := [.reset] }, rfl, rfl, _, rfl, rfl⟩,
    ⟨{ sel (atRow .identify .i1 base) with agenda := [.reset] }, rfl, rfl, rfl, _, rfl, rfl⟩⟩

/-- R173: a read frame cut after its opcode leaves the array; a program frame cut at its opcode, and one cut before its second page byte,
leave the whole array open (log 17). -/
theorem test_cut : (Device.responder { Responder.start with frame := some [0x03] }).cut cfg 7 none =
      .responder (Responder.start.cutLatch 7) ∧
    (Device.responder { Responder.start with frame := some [] }).cut cfg 7 (some 0x02) =
      .responder (Responder.start.cutProgram 7 0 cfg.capacity) ∧
    (Device.responder { Responder.start with frame := some [0x02, 0x00] }).cut cfg 7 none =
      .responder (Responder.start.cutProgram 7 0 cfg.capacity) := ⟨rfl, rfl, rfl⟩

/-- Vector V8.4: a page program of page 2 cut after its header and one byte. -/
def cutState : State :=
  { onBus { Responder.start with frame := some [0x02, 0x00, 0x02, 0x00, 0x11] } with csN := false, agenda := [.reset] }
theorem wit_CutProgramFrameKeepsOtherPages : cutState.agenda = .reset :: [] ∧ cutState.csN = false ∧ cutState.memWf = true ∧
    hasPage cutState.cfg (pageOf 0x00 0x02) ∧ ∃ t, step cutState = .next t := by
  refine ⟨rfl, rfl, rfl, ?_, _, rfl⟩
  unfold hasPage
  decide
theorem wit_IdleStaysIdle : base.seq = .idle ∧ base.agenda = [] ∧ base.ctrlBusy = false ∧
    ∃ t, step { base with agenda := [.write 0x001 0x9F] } = .next t ∧
      ∀ v rest, ([.write 0x001 0x9F] : List HostMove) ≠ .write 0x000 v :: rest := ⟨rfl, rfl, rfl, _, rfl, by simp⟩
theorem wit_StepRunsTheCalledCommand : ({ base with agenda := [.call 0xC7] } : State).agenda = .call 0xC7 :: [] ∧
    decodeCommand 0xC7 = .ok .eraseChip ∧ (0x06 : Byte) ∉ [0x02#8, 0x03#8, 0x05#8, 0x9F#8, 0xC7#8] := ⟨rfl, by decide, by decide⟩
theorem wit_StepRunsOneRow : base.agenda = [] ∧ ({ base with agenda := [.run] } : State).agenda = .run :: [] ∧
    ({ base with agenda := [.wait] } : State).agenda = .wait :: [] ∧ base.ctrlBusy = false ∧
    (atRow .eraseChip .p2 base).ctrlBusy = true := ⟨rfl, rfl, rfl, rfl, rfl⟩
theorem wit_StepRunsTheDrivenFrame : ({ base with agenda := [.frame [0x04]] } : State).agenda = .frame [0x04] :: [] ∧
    decodeFrame [0x04] = .ok .wrdi ∧ base.ctrlBusy = false ∧ (atRow .eraseChip .p2 base).ctrlBusy = true := ⟨rfl, by decide, rfl, rfl⟩

/-- The invariants hold of an idle state, and of one in the middle of a frame. -/
theorem wit_invariants : base.Inv ∧ base.memWf = true ∧ base.devInSync = true ∧ (∃ t, step base = .next t) ∧
    (atRow .eraseChip .e1 (sel base)).Inv ∧ (atRow .eraseChip .e1 (sel base)).devInSync = true := by
  refine ⟨⟨rfl, ?_, ?_, rfl, rfl⟩, rfl, rfl, ⟨_, rfl⟩, ⟨rfl, ?_, ?_, rfl, rfl, rfl, trivial⟩, rfl⟩ <;> decide
theorem wit_OperandsChangeOnlyByTheHost : ∃ t, step { base with agenda := [.write 0x002 0x1234] } = .next t ∧
    t.pageIndex ≠ base.pageIndex := by
  refine ⟨_, rfl, ?_⟩
  decide
theorem wit_ResultsChangeOnlyByTheirCommands : ∃ t, step { scripted [0x55, 0xEF, 0x40, 0x18] with agenda := [.frame [0x9F]] } = .next t ∧
    t.id ≠ base.id ∧ ∀ rest, ([.frame [0x9F]] : List HostMove) ≠ .reset :: rest := by
  refine ⟨_, rfl, ?_, by simp⟩
  decide
theorem wit_ResultsChangeOnlyByTheirCommands_rxbuf : ∃ t, step (atRow .readPage .rd5 { scripted [0x41] with byteCnt := 3, csN := false }) = .next t ∧
    t.rxbuf[0] ≠ base.rxbuf[0] := by
  refine ⟨_, rfl, ?_⟩
  decide
theorem wit_LatchAndTimeoutChangeOnlyByTheirRules : (∃ t, step { base with agenda := [.write 0x000 0x03], pageIndex := 5 } = .next t ∧
      t.pageLatch ≠ base.pageLatch ∧ ∀ rest, ([.write 0x000 0x03] : List HostMove) ≠ .reset :: rest) ∧
    ∃ t, step (atRow .eraseChip .p4 { base with cfg := { cfg with pollLimit := some 1 }, sample := 0x01 }) = .next t ∧
      t.errTimeout ≠ base.errTimeout := by
  refine ⟨⟨_, rfl, ?_, by simp⟩, _, rfl, ?_⟩ <;> decide
theorem wit_OnlySixOpcodesOnTheBus : ({ base with agenda := [.call 0x9F, .reset] } : State).noBench = true ∧
    opcodesEmitted [.x 0x00 0x40, .x 0x9F 0x11, .sel, .desel, .x 0x06 0x22, .sel] = true ∧
    opcodesEmitted [.x 0x04 0x11, .sel] = false := by decide

end Sys2Proof.Tests
end

section
/-! PROOFS. The rows of a continuous poll (D7, log 15): each run of rows as the transport operations it is, and what those leave. -/

namespace Sys2Proof.Machine

/-- Row P2 of a continuous poll receives a status byte and goes on to the test with the frame open (log 15). -/
theorem tick_p2_continuous {s : State} (c : Command) (h : s.cfg.pollFraming = .continuous) :
    tick (goto c .p2 s) = goto c .p4 (storeSample (xSample s)) := by
  rw [tick_goto, tickRow, goto_cfg, h, xSample_goto, storeSample_goto, goto_goto, sampledRow]

/-- Rows P0 to P2 of a continuous poll are the status phase, its frame left open (log 15). -/
theorem ticks_p0_continuous {s : State} (c : Command) (h : s.cfg.pollFraming = .continuous) :
    ticks 3 (goto c .p0 s) = goto c .p4 (statusPhase s) := by
  have p0 : tick (goto c .p0 s) = goto c .p1 (sel s) := by
    rw [tick_goto, tickRow, sel_goto, goto_goto]
  have p1 : tick (goto c .p1 (sel s)) = goto c .p2 (xOpcode opRdsr1 (sel s)) := by
    rw [tick_goto, tickRow, xOpcode_goto, goto_goto]
  have p2 : tick (goto c .p2 (xOpcode opRdsr1 (sel s))) = goto c .p4 (statusPhase s) :=
    tick_p2_continuous c (by rw [xOpcode_cfg, sel_cfg, h])
  rw [ticks, ticks, ticks, ticks, p0, p1, p2]

/-- Settles O60: rows P0 to P2 are a status phase, row P2 alone one status byte, row P3 the closing `Desel` and the end; the field laws
of these operations give every clause. -/
theorem continuousPollRows : Obligations.ContinuousPollRows := by
  intro s c hf
  refine ⟨fun hp0 => ⟨((sel s).answer opRdsr1).1, ?_⟩, fun hp2 => ?_, fun hp3 => ?_⟩
  · have run : ticks 3 s = goto c .p4 (statusPhase s) := by
      simpa only [goto_self hp0] using ticks_p0_continuous c hf
    rw [run]
    simp [statusPhase, State.SameHostSide, opRdsr1]
  · have run : tick s = goto c .p4 (storeSample (xSample s)) := by
      simpa only [goto_self hp2] using tick_p2_continuous c hf
    rw [run]
    simp [State.SameHostSide]
  · have run : tick s = endCommand (desel s) := by
      simpa only [goto_self hp3] using tick_close c s hf
    rw [run]
    simp [State.SameHostSide, State.SameResults]

end Sys2Proof.Machine
end

section
/-! PROOFS. What the decoders, a host write and a step can answer, said once for the claims about registers. -/

namespace Sys2Proof.Machine

/-! ### The decoders -/

/-- The code that starts a command (R85). -/
def Command.code : Command → Byte
  | .identify => opJedecId
  | .eraseChip => opChipErase
  | .readPage => opRead
  | .writePage => opPp
  | .pollUntilReady => opRdsr1

/-- The decoder of CMD answers host commands only, each for its own code (R85). -/
theorem decodeCommand_ok {code : Byte} {i : Instr} (h : decodeCommand code = .ok i) :
    ∃ c, commandOf i = some c ∧ code = c.code := by
  unfold decodeCommand at h
  split_ifs at h with h1 h2 h3 h4 h5 <;> cases h
  exacts [⟨_, rfl, h1⟩, ⟨_, rfl, h2⟩, ⟨_, rfl, h3⟩, ⟨_, rfl, h4⟩, ⟨_, rfl, h5⟩]

theorem decodePlain_ok {i j : Instr} {op : Byte} {n : Nat} {rest : List Byte}
    (h : decodePlain j op n rest = .ok i) : i = j := by
  unfold decodePlain at h
  split at h <;> cases h
  rfl

theorem decodeAddressed_ok {i : Instr} {mk : PageIndex → Instr} {op : Byte} {rest : List Byte}
    (h : decodeAddressed mk op rest = .ok i) : ∃ p, i = mk p := by
  unfold decodeAddressed at h
  split at h
  · split_ifs at h
    cases h
    exact ⟨_, rfl⟩
  · cases h

/-- The decoder of frames answers wire frames only (R75). -/
theorem isCommand_of_decodeFrame {header : List Byte} {i : Instr} (h : decodeFrame header = .ok i) :
    i.isCommand = false := by
  have plain {j : Instr} {op : Byte} {n : Nat} {rest : List Byte} (hj : j.isCommand = false)
      (hd : decodePlain j op n rest = .ok i) : i.isCommand = false := decodePlain_ok hd ▸ hj
  have addressed {mk : PageIndex → Instr} {op : Byte} {rest : List Byte} (hm : ∀ p, (mk p).isCommand = false)
      (hd : decodeAddressed mk op rest = .ok i) : i.isCommand = false := by
    obtain ⟨p, rfl⟩ := decodeAddressed_ok hd
    exact hm p
  unfold decodeFrame at h
  split at h
  · cases h
  · split_ifs at h
    exacts [plain rfl h, plain rfl h, plain rfl h, plain rfl h, plain rfl h, addressed (fun _ => rfl) h,
      addressed (fun _ => rfl) h]

/-! ### Host writes -/

theorem hostWrite_busy {s : State} (num : Nat) (v : BitVec 16) (h : s.ctrlBusy = true) : hostWrite num v s = s := by
  rw [hostWrite, h, if_pos rfl]

theorem hostWrite_idle {s : State} (num : Nat) (v : BitVec 16) (h : s.ctrlBusy = false) :
    hostWrite num v s = writeReg v s (regOf num) := by
  rw [hostWrite, h, if_neg Bool.false_ne_true]

/-- A write of CMD accepts the command it decodes to, or changes nothing (R16, R87). -/
theorem startCommand_cases (code : Byte) (s : State) :
    startCommand code s = s ∨ ∃ i c, decodeCommand code = .ok i ∧ startCommand code s = accept c s := by
  unfold startCommand
  cases hd : decodeCommand code with
  | error r => exact .inl rfl
  | ok i =>
    cases hc : commandOf i with
    | none => exact .inl (by simp only [hc])
    | some c => exact .inr ⟨i, c, rfl, by simp only [hc]⟩

/-- CMD is register 0x000 and no other (R29). -/
theorem regOf_cmd {num : Nat} (h : regOf num = some .cmd) : num = 0x000 := by
  unfold regOf at h
  split_ifs at h with h0
  · exact h0
  all_goals cases h

/-- What a host write can do: accept a command through CMD, move PAGE_INDEX or one byte of TXBUF, or nothing (R16, R17, R18,
R25, R29). -/
inductive WriteKind (num : Nat) (v : BitVec 16) (s t : State) : Prop where
  | nothing (ht : t = s)
  | command (c : Command) (i : Instr) (hb : s.ctrlBusy = false) (hn : num = 0x000)
      (hd : decodeCommand (v.setWidth 8) = .ok i) (ht : t = accept c s)
  | pageIndex (hb : s.ctrlBusy = false) (ht : t = { s with pageIndex := v })
  | txbuf (k : Fin 256) (hb : s.ctrlBusy = false) (ht : t = { s with txbuf := s.txbuf.set k (v.setWidth 8) })

theorem hostWrite_cases (num : Nat) (v : BitVec 16) (s : State) : WriteKind num v s (hostWrite num v s) := by
  cases hb : s.ctrlBusy with
  | true => exact .nothing (hostWrite_busy num v hb)
  | false =>
    rw [hostWrite_idle num v hb]
    cases hr : regOf num with
    | none => exact .nothing rfl
    | some reg =>
      cases reg with
      | cmd =>
        obtain h | ⟨i, c, hd, h⟩ := startCommand_cases (v.setWidth 8) s
        · exact .nothing h
        · exact .command c i hb (regOf_cmd hr) hd h
      | pageIndex => exact .pageIndex hb rfl
      | txbuf k => exact .txbuf k hb rfl
      | ctrlStatus | id | rxbuf => exact .nothing rfl

/-! ### Commands and steps -/

/-- The frames of a command after its acceptance (R120 to R124). -/
def Command.run : Command → State → State
  | .identify => runIdentify
  | .eraseChip => runEraseChip
  | .readPage => runReadPage
  | .writePage => runWritePage
  | .pollUntilReady => runPollUntilReady

/-- A host command is accepted by an idle controller and ignored by a busy one (R16, R25). -/
theorem exec_command {i : Instr} {c : Command} (hc : commandOf i = some c) (s : State) :
    exec i s = .next (whenIdle c c.run s) := by
  cases i with
  | jedecId | wren | wrdi | chipErase | rdsr1 | read | pp => cases hc
  | identify | eraseChip | readPage | writePage | pollUntilReady =>
    cases hc
    rfl

theorem commandOf_of_isCommand {i : Instr} (h : i.isCommand = true) : ∃ c, commandOf i = some c := by
  cases i with
  | jedecId | wren | wrdi | chipErase | rdsr1 | read | pp => cases h
  | identify | eraseChip | readPage | writePage | pollUntilReady => exact ⟨_, rfl⟩

/-- Settles O30: every command begins with the test of CTRL_BUSY. -/
theorem commandsWhileBusyAreIgnored : Obligations.CommandsWhileBusyAreIgnored := by
  intro i s hi hb
  obtain ⟨c, hc⟩ := commandOf_of_isCommand hi
  rw [exec_command hc, whenIdle_busy hb]

/-- Everything a step that answers `t` can do to the registers and the bus: `StepKind` with the host moves that touch neither
taken together. -/
inductive StepEffect (s t : State) : Prop where
  | quiet (rest : List HostMove) (v : BitVec 16) (n : Nat) (ht : t = { s with agenda := rest, rdata := v, freeCtr := n })
  | row (rest : List HostMove) (ht : t = tick (withAgenda rest s))
  | reset (rest : List HostMove) (h : s.agenda = .reset :: rest) (ht : t = resetController (withAgenda rest s))
  | write (num : Nat) (v : BitVec 16) (rest : List HostMove) (h : s.agenda = .write num v :: rest)
      (hw : WriteKind num v (withAgenda rest s) t)
  | command (c : Command) (i : Instr) (rest : List HostMove) (h : s.agenda = .call c.code :: rest) (hb : s.ctrlBusy = false)
      (hd : decodeCommand c.code = .ok i) (ht : t = c.run (accept c (withAgenda (.wait :: rest) s)))
  | frame (header : List Byte) (i : Instr) (rest : List HostMove) (h : s.agenda = .frame header :: rest)
      (hb : s.ctrlBusy = false) (hd : decodeFrame header = .ok i) (ht : exec i (withAgenda rest s) = .next t)

/-- SEQ_STEP is idle or names a row (R20). -/
theorem seq_cases (s : State) : s.seq = .idle ∨ ∃ c r, s.seq = .at c r := by
  rcases s.seq with _ | ⟨c, r⟩
  · exact .inl rfl
  · exact .inr ⟨c, r, rfl⟩

theorem tick_idle {s : State} (h : s.seq = .idle) : tick s = s := by rw [tick, h]

theorem tick_at {s : State} {c : Command} {r : Row} (h : s.seq = .at c r) : tick s = tickRow c r s := by rw [tick, h]

/-- A step that answers a next state has one of these effects. -/
theorem step_effect {s t : State} (h : step s = .next t) : StepEffect s t := by
  cases step_cases h with
  | free _ ht => exact .row s.agenda ht
  | run rest _ ht => exact .row rest ht
  | waiting rest _ _ ht => exact .row s.agenda ht
  | waited rest _ _ ht => exact .quiet _ _ _ ht
  | reset rest ha ht => exact .reset rest ha ht
  | write num v rest ha ht => exact .write num v rest ha (ht ▸ hostWrite_cases num v _)
  | read num rest _ ht => exact .quiet _ _ _ ht
  | call code i rest ha hd ht =>
    obtain ⟨c, hc, rfl⟩ := decodeCommand_ok hd
    rw [exec_command hc, Host.Outcome.next.injEq] at ht
    cases hb : s.ctrlBusy with
    | false => exact .command c i rest ha hb hd (ht.symm.trans (whenIdle_idle hb))
    | true => exact .quiet _ _ _ (ht.symm.trans (whenIdle_busy hb))
  | reserved code rest _ _ ht => exact .quiet _ _ _ ht
  | frame header i rest ha hb hd ht => exact .frame header i rest ha hb hd ht
  | noFrame header rest _ ht => exact .quiet _ _ _ ht

end Sys2Proof.Machine
end

section
/-! PROOFS. Which registers a wire frame, a row and a host command leave alone, and what of that holds over every step. -/

namespace Sys2Proof.Machine

/-- Settles O13: each frame's own law, taken from `frameRun_*`. -/
theorem framesKeepRegisters : Obligations.FramesKeepRegisters := by
  intro i s t hi h
  cases i with
  | identify | eraseChip | readPage | writePage | pollUntilReady => cases hi
  | jedecId =>
    cases h
    obtain ⟨run, -, hrx, hsample⟩ := frameRun_jedecId s
    exact ⟨run.operands, fun _ => hrx, fun hn => absurd rfl hn, fun _ => hsample⟩
  | wren | wrdi | chipErase =>
    cases h
    obtain ⟨run, hrx, hid, hsample⟩ := frameRun_opFrame _ s
    exact ⟨run.operands, fun _ => hrx, fun _ => hid, fun _ => hsample⟩
  | rdsr1 =>
    cases h
    obtain ⟨run, -, hrx, hid⟩ := frameRun_rdsr1 s
    exact ⟨run.operands, fun _ => hrx, fun _ => hid, fun hn => absurd rfl hn⟩
  | read p =>
    obtain rfl := Host.Outcome.next.inj ((exec_read p s).symm.trans h)
    obtain ⟨run, -, hid, hsample⟩ := frameRun_read p s
    exact ⟨run.operands, fun hn => absurd rfl (hn p), fun _ => hid, fun _ => hsample⟩
  | pp p =>
    obtain rfl := Host.Outcome.next.inj ((exec_pp p s).symm.trans h)
    obtain ⟨run, hrx, hid, hsample⟩ := frameRun_pp p s
    exact ⟨run.operands, fun _ => hrx, fun _ => hid, fun _ => hsample⟩

/-! ### Rows and commands -/

/-- What `t` has of `s` after any part of a command that is past its acceptance: PAGE_INDEX, TXBUF and PAGE_LATCH (R17, R18,
R23), RXBUF where `rx` holds, and ID where `ident` holds (R19, R21). -/
structure Keeps (rx ident : Prop) (s t : State) : Prop where
  pageIndex : t.pageIndex = s.pageIndex
  txbuf : t.txbuf = s.txbuf
  latch : t.pageLatch = s.pageLatch
  rxbuf : rx → t.rxbuf = s.rxbuf
  id : ident → t.id = s.id

theorem Keeps.trans {rx ident : Prop} {s t u : State} (h : Keeps rx ident s t) (k : Keeps rx ident t u) :
    Keeps rx ident s u where
  pageIndex := k.pageIndex.trans h.pageIndex
  txbuf := k.txbuf.trans h.txbuf
  latch := k.latch.trans h.latch
  rxbuf hr := (k.rxbuf hr).trans (h.rxbuf hr)
  id hi := (k.id hi).trans (h.id hi)

theorem Keeps.of_operands {rx ident : Prop} {s t : State} (h : s.SameOperands t) (hr : rx → t.rxbuf = s.rxbuf)
    (hi : ident → t.id = s.id) : Keeps rx ident s t := by
  obtain ⟨-, hpage, htx, hlatch, -⟩ := h
  exact ⟨hpage, htx, hlatch, hr, hi⟩

variable {rx ident : Prop} (c : Command) (s : State)

theorem keeps_opFrame (op : Byte) : Keeps rx ident s (opFrame op s) := by
  obtain ⟨run, hrx, hid, -⟩ := frameRun_opFrame op s
  exact .of_operands run.operands (fun _ => hrx) (fun _ => hid)

theorem keeps_jedecIdFrame (h : ¬ident) : Keeps rx ident s (jedecIdFrame s) := by
  obtain ⟨run, -, hrx, -⟩ := frameRun_jedecId s
  exact .of_operands run.operands (fun _ => hrx) (fun hi => absurd hi h)

theorem keeps_readFrame (p : PageIndex) (h : ¬rx) : Keeps rx ident s (readFrame p s) := by
  obtain ⟨run, -, hid, -⟩ := frameRun_read p s
  exact .of_operands run.operands (fun hr => absurd hr h) (fun _ => hid)

theorem keeps_ppFrame (p : PageIndex) : Keeps rx ident s (ppFrame p s) := by
  obtain ⟨run, hrx, hid, -⟩ := frameRun_pp p s
  exact .of_operands run.operands (fun _ => hrx) (fun _ => hid)

theorem keeps_enterPoll : Keeps rx ident s (enterPoll c s) := ⟨rfl, rfl, rfl, fun _ => rfl, fun _ => rfl⟩

theorem keeps_endCommand : Keeps rx ident s (endCommand s) := ⟨rfl, rfl, rfl, fun _ => rfl, fun _ => rfl⟩

theorem keeps_pollTest : Keeps rx ident s (pollTest c s) := by
  rw [pollTest_eq]
  exact ⟨rfl, rfl, rfl, fun _ => rfl, fun _ => rfl⟩

/-- The first pass of a poll writes none of these registers (R125). -/
theorem keeps_pollOnce : Keeps rx ident s (pollOnce c s) := by
  obtain ⟨u, ⟨-, rfl⟩ | ⟨-, rfl⟩, hpoll, -⟩ := pollOnce_bus c s
  · obtain ⟨run, -, hrx, hid⟩ := frameRun_rdsr1 s
    exact hpoll ▸ (Keeps.of_operands run.operands (fun _ => hrx) (fun _ => hid)).trans (keeps_pollTest c _)
  · obtain ⟨hops, hrx, hid, -⟩ := statusPhase_keeps s
    exact hpoll ▸ (Keeps.of_operands hops (fun _ => hrx) (fun _ => hid)).trans (keeps_pollTest c _)

/-- Row I5 closes the identify frame: on to the poll under IDENTIFY_POLLS, else the end of the command (R120). -/
theorem tickRow_i5 : tickRow c .i5 s = if s.cfg.identifyPolls then enterPoll c (desel s) else endCommand (desel s) := rfl

/-- Of the rows RD5 alone writes RXBUF, and I2, I3 and I4 alone write ID (R120 to R125). -/
theorem keeps_tickRow (r : Row) : Keeps (r ≠ .rd5) (¬(r = .i2 ∨ r = .i3 ∨ r = .i4)) s (tickRow c r s) := by
  cases r with
  | p4 => exact keeps_pollTest c s
  | i5 =>
    rw [tickRow_i5]
    split <;> constructor <;> simp
  | _ => constructor <;> simp [tickRow]

/-- Frames, then the first pass of a poll. -/
theorem Keeps.poll {s u : State} (h : Keeps rx ident s u) : Keeps rx ident s (pollOnce c (enterPoll c u)) :=
  (h.trans (keeps_enterPoll c u)).trans (keeps_pollOnce c _)

/-- Of the commands READ_PAGE alone writes RXBUF, and IDENTIFY alone writes ID (R120 to R124). -/
theorem keeps_command : Keeps (c ≠ .readPage) (c ≠ .identify) s (c.run s) := by
  cases c with
  | identify =>
    simp only [Command.run, runIdentify]
    split
    · exact (keeps_jedecIdFrame s (not_not_intro rfl)).poll _
    · exact (keeps_jedecIdFrame s (not_not_intro rfl)).trans (keeps_endCommand _)
  | eraseChip =>
    simp only [Command.run, runEraseChip]
    exact ((keeps_opFrame s _).trans (keeps_opFrame _ _)).poll _
  | readPage =>
    simp only [Command.run, runReadPage]
    exact (keeps_readFrame s _ (not_not_intro rfl)).poll _
  | writePage =>
    simp only [Command.run, runWritePage]
    exact ((keeps_opFrame s _).trans (keeps_ppFrame _ _)).poll _
  | pollUntilReady => exact keeps_pollOnce _ s

/-! ### The claims over every step -/

/-- Settles O55: the configuration is a property of the bus side that every step keeps. -/
theorem configurationNeverChanges : Obligations.ConfigurationNeverChanges := by
  intro s t h
  have kept : BusKept fun u => u.cfg = s.cfg :=
    { sel := fun _ h => h, desel := fun _ h => h, reset := fun _ h => h
      xByte := fun o u h => (xByte_cfg u o).trans h
      quiet := fun _ _ hcfg _ _ h => hcfg.trans h }
  exact kept.step h rfl

/-- The operands, PAGE_LATCH, RXBUF and ID over a step of the controller (R120 to R125). -/
theorem keeps_tick :
    Keeps (¬∃ c, s.seq = .at c .rd5) (¬∃ c r, s.seq = .at c r ∧ (r = .i2 ∨ r = .i3 ∨ r = .i4)) s (tick s) := by
  obtain hs | ⟨c, r, hs⟩ := seq_cases s
  · rw [tick_idle hs]
    exact ⟨rfl, rfl, rfl, fun _ => rfl, fun _ => rfl⟩
  · rw [tick_at hs]
    obtain ⟨hpage, htx, hlatch, hrx, hid⟩ := keeps_tickRow c s r
    exact ⟨hpage, htx, hlatch, fun hn => hrx fun hr => hn ⟨c, hr ▸ hs⟩, fun hn => hid fun hr => hn ⟨c, r, hs, hr⟩⟩

/-- ERR_TIMEOUT changes in a row only where P4 finds the limit reached with the sample busy, and to 1 (R158). -/
theorem tickRow_errTimeout {c : Command} {r : Row} {s : State} (h : (tickRow c r s).errTimeout ≠ s.errTimeout) :
    r = .p4 ∧ s.cfg.pollLimit = some (s.pollCnt + 1) ∧ s.sampleBusy = true ∧ (tickRow c r s).errTimeout = true := by
  cases r with
  | p4 =>
    refine ⟨rfl, ?_⟩
    obtain ⟨-, ht⟩ | ⟨hbusy, hlimit, ht⟩ | ⟨-, -, ht⟩ := pollTest_cases c s
    · exact absurd (by rw [tickRow, ht, leavePoll_errTimeout]) h
    · exact ⟨hlimit, hbusy, by rw [tickRow, ht, raiseDeviceTimeout_errTimeout]⟩
    · exact absurd (by rw [tickRow, ht, goto_errTimeout]) h
  | i5 =>
    refine absurd ?_ h
    rw [tickRow_i5]
    split <;> rfl
  | _ => exact absurd (by simp [tickRow]) h

/-- ERR_TIMEOUT over a step of the controller (R158). -/
theorem tick_errTimeout {s : State} (h : (tick s).errTimeout ≠ s.errTimeout) :
    ∃ c, s.seq = .at c .p4 ∧ s.cfg.pollLimit = some (s.pollCnt + 1) ∧ s.sampleBusy = true ∧ (tick s).errTimeout = true := by
  obtain hs | ⟨c, r, hs⟩ := seq_cases s
  · exact absurd (by rw [tick_idle hs]) h
  · rw [tick_at hs] at h ⊢
    obtain ⟨rfl, hrule⟩ := tickRow_errTimeout h
    exact ⟨c, hs, hrule⟩

/-- A host write leaves the result registers alone (R19, R21). -/
theorem WriteKind.results {num : Nat} {v : BitVec 16} {s t : State} (h : WriteKind num v s t) :
    t.rxbuf = s.rxbuf ∧ t.id = s.id := by
  cases h <;> subst_vars <;> exact ⟨rfl, rfl⟩

/-- Settles O56: of what a step can do, only a host write and a reset reach PAGE_INDEX and TXBUF. -/
theorem operandsChangeOnlyByTheHost : Obligations.OperandsChangeOnlyByTheHost := by
  intro s t h hchange
  have same (hp : t.pageIndex = s.pageIndex) (htx : t.txbuf = s.txbuf) : False :=
    hchange.elim (absurd hp) (absurd htx)
  cases step_effect h with
  | quiet _ _ _ ht => exact (same (ht ▸ rfl) (ht ▸ rfl)).elim
  | row rest ht =>
    have k := keeps_tick (withAgenda rest s)
    exact (same (ht ▸ k.pageIndex) (ht ▸ k.txbuf)).elim
  | reset rest h _ => exact .inr ⟨rest, h⟩
  | write num v rest h hw =>
    cases hw with
    | nothing ht => exact (same (ht ▸ rfl) (ht ▸ rfl)).elim
    | command _ _ hb | pageIndex hb | txbuf _ hb => exact .inl ⟨hb, num, v, rest, h⟩
  | command c i rest _ _ _ ht =>
    have k := keeps_command c (accept c (withAgenda (.wait :: rest) s))
    exact (same (ht ▸ k.pageIndex) (ht ▸ k.txbuf)).elim
  | frame header i rest _ _ hd ht =>
    obtain ⟨⟨-, hp, htx, -⟩, -⟩ := framesKeepRegisters i _ t (isCommand_of_decodeFrame hd) ht
    exact (same hp htx).elim

/-- Settles O57: of what a step can do, only a row, a command and a frame reach a result register, each by its own law. -/
theorem resultsChangeOnlyByTheirCommands : Obligations.ResultsChangeOnlyByTheirCommands := by
  intro s t h hreset
  cases step_effect h with
  | quiet _ _ _ ht => exact ⟨absurd (ht ▸ rfl), absurd (ht ▸ rfl)⟩
  | row rest ht =>
    subst ht
    have k := keeps_tick (withAgenda rest s)
    exact ⟨fun hne => .inl (not_imp_comm.mp k.rxbuf hne), fun hne => .inl (not_imp_comm.mp k.id hne)⟩
  | reset rest h _ => exact absurd h (hreset rest)
  | write num v rest _ hw => exact ⟨absurd hw.results.1, absurd hw.results.2⟩
  | command c i rest ha _ _ ht =>
    subst ht
    have k := keeps_command c (accept c (withAgenda (.wait :: rest) s))
    refine ⟨fun hne => ?_, fun hne => ?_⟩
    · obtain rfl := not_imp_comm.mp k.rxbuf hne
      exact .inr (.inl ⟨rest, ha⟩)
    · obtain rfl := not_imp_comm.mp k.id hne
      exact .inr (.inl ⟨rest, ha⟩)
  | frame header i rest h _ hd ht =>
    obtain ⟨-, hrx, hid, -⟩ := framesKeepRegisters i _ t (isCommand_of_decodeFrame hd) ht
    refine ⟨fun hne => ?_, fun hne => ?_⟩
    · obtain ⟨p, rfl⟩ : ∃ p, i = .read p := by_contra fun hn => hne (hrx fun p hp => hn ⟨p, hp⟩)
      exact .inr (.inr ⟨header, rest, p, h, hd⟩)
    · obtain rfl := not_imp_comm.mp hid hne
      exact .inr (.inr ⟨header, rest, h, hd⟩)

/-- Settles O59: PAGE_LATCH and ERR_TIMEOUT move at acceptance, by a CMD write or a call, and ERR_TIMEOUT at row P4. -/
theorem latchAndTimeoutChangeOnlyByTheirRules : Obligations.LatchAndTimeoutChangeOnlyByTheirRules := by
  intro s t h hreset accepted
  cases step_effect h with
  | quiet _ _ _ ht => exact ⟨absurd (ht ▸ rfl), absurd (ht ▸ rfl)⟩
  | row rest ht =>
    subst ht
    have herr := @tick_errTimeout (withAgenda rest s)
    exact ⟨absurd (keeps_tick (withAgenda rest s)).latch, fun hne => .inr (herr hne)⟩
  | reset rest h _ => exact absurd h (hreset rest)
  | write num v rest h hw =>
    cases hw with
    | command c i hb hn hd ht =>
      have hacc : accepted := ⟨hb, .inl ⟨v, rest, i, hn ▸ h, hd⟩⟩
      exact ⟨fun _ => ⟨hacc, ht ▸ rfl⟩, fun _ => .inl hacc⟩
    | nothing ht | pageIndex _ ht | txbuf _ _ ht => exact ⟨absurd (ht ▸ rfl), absurd (ht ▸ rfl)⟩
  | command c i rest h hb hd ht =>
    have hacc : accepted := ⟨hb, .inr ⟨c.code, rest, i, h, hd⟩⟩
    have k := keeps_command c (accept c (withAgenda (.wait :: rest) s))
    exact ⟨fun _ => ⟨hacc, ht ▸ k.latch⟩, fun _ => .inl hacc⟩
  | frame header i rest _ _ hd ht =>
    obtain ⟨⟨-, -, -, hlatch, -, herr, -⟩, -⟩ := framesKeepRegisters i _ t (isCommand_of_decodeFrame hd) ht
    exact ⟨absurd hlatch, absurd herr⟩

end Sys2Proof.Machine
end

section
/-! PROOFS. The bus event of each row, and where the bus stands before and after each operation and frame. -/

namespace Sys2Proof.Machine

/-! ### One row, one bus event -/

theorem pollTest_trace (c : Command) (s : State) : (pollTest c s).trace = s.trace := by rw [pollTest_eq]

/-- The event a row puts on the trace is the one its step table gives it (R120 to R125). -/
theorem tickRow_trace (c : Command) (r : Row) (s : State) : (tickRow c r s).trace = rowEvents s r ++ s.trace := by
  cases r with
  | p4 => exact pollTest_trace c s
  | i5 =>
    rw [tickRow_i5]
    split <;> rfl
  | i0 | e0 | e3 | rd0 | w0 | w3 | p0 => rfl
  | e2 | e5 | rd6 | w2 | w9 | p3 => simp [tickRow, rowEvents]
  | i1 | e1 | e4 | rd1 | w1 | w4 | p1 => simp [tickRow, rowEvents, rowEvents.sent]
  | i2 | i3 | i4 | rd5 | p2 => simp [tickRow, rowEvents, rowEvents.sent]
  | rd2 | rd3 | rd4 | w5 | w6 | w7 | w8 => simp [tickRow, rowEvents, rowEvents.sent]

/-- Settles O33: `tickRow_trace`, row by row. -/
theorem oneRowOneBusEvent : Obligations.OneRowOneBusEvent := by
  refine ⟨fun s c r hs => ⟨?_, ?_⟩, fun s hs => tick_idle hs⟩
  · rw [tick_at hs]
    exact tickRow_trace c r s
  · cases r <;> rfl

/-! ### Where the bus stands -/

/-- At a step boundary: the clock low, the framing `f`, and CS_N deasserted exactly when no frame is open (R11, R12, R32). -/
structure BusAt (f : Framing) (s : State) : Prop where
  sck : s.sck = false
  framed : framing s.trace = f
  csN : s.csN = decide (f = .closed)

/-- The registers off the bus do not matter. -/
theorem BusAt.quiet {f : Framing} {s t : State} (h : BusAt f s) (hsck : t.sck = s.sck) (htrace : t.trace = s.trace)
    (hcs : t.csN = s.csN) : BusAt f t :=
  ⟨hsck.trans h.sck, (congrArg framing htrace).trans h.framed, hcs.trans h.csN⟩

variable {s : State} {n : Nat} {f : Framing}

theorem BusAt.sel (h : BusAt .closed s) : BusAt (.opened 0) (sel s) :=
  ⟨h.sck, by simp [framing, h.framed, Framing.after], rfl⟩

theorem BusAt.desel (h : BusAt (.opened (n + 1)) s) : BusAt .closed (desel s) :=
  ⟨h.sck, by simp [framing, h.framed, Framing.after], rfl⟩

theorem BusAt.xByte (o : Byte) (h : BusAt (.opened n) s) : BusAt (.opened (n + 1)) (xByte o s) :=
  ⟨xByte_sck s o, by simp [framing, h.framed, Framing.after], by simp [h.csN]⟩

theorem BusAt.setByteCnt (k : Nat) (h : BusAt f s) : BusAt f { s with byteCnt := k } := h.quiet rfl rfl rfl

theorem BusAt.xOpcode (o : Byte) (h : BusAt (.opened n) s) : BusAt (.opened (n + 1)) (xOpcode o s) :=
  (h.setByteCnt 0).xByte o

theorem BusAt.xNext (o : Byte) (h : BusAt (.opened n) s) : BusAt (.opened (n + 1)) (xNext o s) :=
  (h.setByteCnt (s.byteCnt + 1)).xByte o

theorem BusAt.xFill (h : BusAt (.opened n) s) : BusAt (.opened (n + 1)) (xFill s) := h.xNext s.cfg.dummyByte

theorem BusAt.xSample (h : BusAt (.opened n) s) : BusAt (.opened (n + 1)) (xSample s) :=
  (h.setByteCnt 1).xByte s.cfg.dummyByte

theorem BusAt.storeId (k : Fin 3) (h : BusAt f s) : BusAt f (storeId k s) := h.quiet rfl rfl rfl

theorem BusAt.storeRx (i : Fin 256) (h : BusAt f s) : BusAt f (storeRx i s) := h.quiet rfl rfl rfl

theorem BusAt.storeSample (h : BusAt f s) : BusAt f (storeSample s) := h.quiet rfl rfl rfl

theorem BusAt.readPhase (is : List (Fin 256)) (h : BusAt (.opened n) s) :
    BusAt (.opened (n + is.length)) (readPhase is s) := by
  induction is generalizing s n with
  | nil => exact h
  | cons i is ih =>
    rw [readPhase_cons, List.length_cons, Nat.add_comm is.length, ← Nat.add_assoc]
    exact ih (h.xFill.storeRx i)

theorem BusAt.programPhase (is : List (Fin 256)) (h : BusAt (.opened n) s) :
    BusAt (.opened (n + is.length)) (programPhase is s) := by
  induction is generalizing s n with
  | nil => exact h
  | cons i is ih =>
    rw [programPhase_cons, List.length_cons, Nat.add_comm is.length, ← Nat.add_assoc]
    exact ih (h.xNext _)

theorem BusAt.addressPhase (op : Byte) (p : PageIndex) (h : BusAt .closed s) :
    BusAt (.opened 4) (addressPhase op p s) :=
  (((h.sel.xOpcode op).xNext _).xNext _).xNext _

/-! ### Frames -/

/-- No frame open, and BYTE_CNT in its range: what the invariant asks of a bus between frames (R32 (a), R24). -/
structure BusFree (s : State) : Prop where
  bus : BusAt .closed s
  byteCnt : s.byteCnt ≤ 259

theorem BusFree.opFrame (op : Byte) (h : BusFree s) : BusFree (opFrame op s) :=
  ⟨(h.bus.sel.xOpcode op).desel, by simp [Machine.opFrame]⟩

theorem BusFree.jedecIdFrame (h : BusFree s) : BusFree (jedecIdFrame s) :=
  ⟨((((((h.bus.sel.xOpcode opJedecId).xFill.storeId 0).xFill).storeId 1).xFill).storeId 2).desel,
    by simp [Machine.jedecIdFrame]⟩

theorem BusFree.rdsr1Frame (h : BusFree s) : BusFree (rdsr1Frame s) :=
  ⟨(h.bus.sel.xOpcode opRdsr1).xSample.storeSample.desel, by simp [Machine.rdsr1Frame, statusPhase]⟩

theorem BusFree.readFrame (p : PageIndex) (h : BusFree s) : BusFree (readFrame p s) := by
  have hdata : BusAt (.opened (259 + 1)) (readPhase (List.finRange 256) (addressPhase opRead p s)) := by
    have hrun := (h.bus.addressPhase opRead p).readPhase (List.finRange 256)
    rwa [List.length_finRange] at hrun
  have hcnt := readPhase_byteCnt (List.finRange 256) (addressPhase opRead p s)
  rw [List.length_finRange] at hcnt
  unfold Machine.readFrame
  exact ⟨hdata.desel, by rw [desel_byteCnt, hcnt]; simp [Machine.addressPhase]⟩

theorem BusFree.ppFrame (p : PageIndex) (h : BusFree s) : BusFree (ppFrame p s) := by
  have hdata : BusAt (.opened (259 + 1)) (programPhase (List.finRange 256) (addressPhase opPp p s)) := by
    have hrun := (h.bus.addressPhase opPp p).programPhase (List.finRange 256)
    rwa [List.length_finRange] at hrun
  have hcnt := programPhase_byteCnt (List.finRange 256) (addressPhase opPp p s)
  rw [List.length_finRange] at hcnt
  unfold Machine.ppFrame
  exact ⟨hdata.desel, by rw [desel_byteCnt, hcnt]; simp [Machine.addressPhase]⟩

/-- A wire frame leaves the bus free again (R70, R101). -/
theorem BusFree.exec_frame {i : Instr} {t : State} (hi : i.isCommand = false) (h : BusFree s) (ht : exec i s = .next t) :
    BusFree t := by
  cases i with
  | identify | eraseChip | readPage | writePage | pollUntilReady => cases hi
  | jedecId => exact Host.Outcome.next.inj ht ▸ h.jedecIdFrame
  | wren => exact Host.Outcome.next.inj ht ▸ h.opFrame opWren
  | wrdi => exact Host.Outcome.next.inj ht ▸ h.opFrame opWrdi
  | chipErase => exact Host.Outcome.next.inj ht ▸ h.opFrame opChipErase
  | rdsr1 => exact Host.Outcome.next.inj ht ▸ h.rdsr1Frame
  | read p => exact Host.Outcome.next.inj ht ▸ h.readFrame p
  | pp p => exact Host.Outcome.next.inj ht ▸ h.ppFrame p

end Sys2Proof.Machine
end

section
/-! PROOFS. The invariant of the controller (R32): what it says at each row, and that every row, command and step keeps it. -/

namespace Sys2Proof.Machine

/-! ### The rows -/

variable {s u : State} {c : Command} {r r' : Row} {f f' : Framing}

/-- The command a row belongs to; none for the poll rows, which every polling command has (R120 to R125). -/
def Row.owner : Row → Option Command
  | .i0 | .i1 | .i2 | .i3 | .i4 | .i5 => some .identify
  | .e0 | .e1 | .e2 | .e3 | .e4 | .e5 => some .eraseChip
  | .rd0 | .rd1 | .rd2 | .rd3 | .rd4 | .rd5 | .rd6 => some .readPage
  | .w0 | .w1 | .w2 | .w3 | .w4 | .w5 | .w6 | .w7 | .w8 | .w9 => some .writePage
  | .p0 | .p1 | .p2 | .p3 | .p4 => none

/-- Every command polls but IDENTIFY, which polls under IDENTIFY_POLLS (R120, D9). -/
def Command.polls (identifyPolls : Bool) (c : Command) : Bool := identifyPolls || decide (c ≠ .identify)

/-- A command's table is its own rows, and the poll rows where it polls. -/
theorem inTable_eq (polls : Bool) (c : Command) (r : Row) :
    inTable polls c r = r.owner.elim (c.polls polls) (fun d => decide (c = d)) := by
  cases polls <;> cases c <;> cases r <;> rfl

/-- What the invariant says of a state that stands at the row `r` of the command `c`, with the framing `f` (R20, R32). -/
structure RowInv (c : Command) (r : Row) (f : Framing) (s : State) : Prop where
  bus : BusAt f s
  byteCnt : s.byteCnt ≤ 259
  busy : s.ctrlBusy = true
  table : r.owner.elim (c.polls s.cfg.identifyPolls) (fun d => decide (c = d)) = true
  row : rowBus s.cfg.pollFraming s.byteCnt f r
  idx : rowByteCnt s.cfg.pollFraming s.byteCnt r

theorem inv_goto : (goto c r s).Inv ↔ ∃ f, RowInv c r f s := by
  constructor
  · rintro ⟨hsck, hcs, hcnt, hbusy, htab, hrow, hidx⟩
    rw [inTable_eq] at htab
    exact ⟨_, ⟨hsck, rfl, hcs⟩, hcnt, hbusy, htab, hrow, hidx⟩
  · rintro ⟨f, ⟨hsck, rfl, hcs⟩, hcnt, hbusy, htab, hrow, hidx⟩
    rw [← inTable_eq] at htab
    exact ⟨hsck, hcs, hcnt, hbusy, htab, hrow, hidx⟩

theorem inv_at (hs : s.seq = .at c r) (h : s.Inv) : ∃ f, RowInv c r f s := inv_goto.mp ((goto_self hs).symm ▸ h)

/-- An idle controller meets the invariant exactly where the bus is free (R32 (a)). -/
theorem inv_idle (hs : s.seq = .idle) : s.Inv ↔ BusFree s ∧ s.ctrlBusy = false := by
  unfold State.Inv State.SeqInv
  rw [hs]
  constructor
  · rintro ⟨hsck, hcs, hcnt, hbusy, hf⟩
    exact ⟨⟨⟨hsck, hf, by rw [hcs, hf]⟩, hcnt⟩, hbusy⟩
  · rintro ⟨⟨⟨hsck, hf, hcs⟩, hcnt⟩, hbusy⟩
    exact ⟨hsck, by rw [hcs, hf], hcnt, hbusy, hf⟩

theorem inv_endCommand (h : BusFree s) : (endCommand s).Inv :=
  (inv_idle rfl).mpr ⟨⟨h.bus.quiet rfl rfl rfl, h.byteCnt⟩, rfl⟩

/-- A poll begins with the bus free (R125). -/
theorem inv_enterPoll (h : BusFree s) (hbusy : s.ctrlBusy = true) (hpolls : c.polls s.cfg.identifyPolls = true) :
    (enterPoll c s).Inv :=
  inv_goto.mpr ⟨.closed, h.bus.quiet rfl rfl rfl, h.byteCnt, hbusy, hpolls, rfl, trivial⟩

/-- Row `r` has done `u` and SEQ_STEP goes on to a row of the same table: the next row must find the bus where `u` left it. -/
theorem RowInv.next (h : RowInv c r f s) (hbus : BusAt f' u) (hown : r'.owner = r.owner) (hcfg : u.cfg = s.cfg)
    (hbusy : u.ctrlBusy = s.ctrlBusy) (hcnt : u.byteCnt ≤ 259) (hrow : rowBus s.cfg.pollFraming u.byteCnt f' r')
    (hidx : rowByteCnt s.cfg.pollFraming u.byteCnt r') : (goto c r' u).Inv :=
  inv_goto.mpr ⟨f', hbus, hcnt, hbusy.trans h.busy, by rw [hown, hcfg]; exact h.table, by rwa [hcfg], by rwa [hcfg]⟩

/-- One more byte of the frame, BYTE_CNT counting it (R24). -/
theorem RowInv.nextByte {n k : Nat} (h : RowInv c r (.opened n) s) (hbus : BusAt (.opened (n + 1)) u)
    (hown : r'.owner = r.owner) (hcfg : u.cfg = s.cfg) (hbusy : u.ctrlBusy = s.ctrlBusy) (hcnt : u.byteCnt = s.byteCnt + 1) (hk : s.byteCnt + 1 = k)
    (hmax : k ≤ 259) (hrow : rowBus s.cfg.pollFraming k (.opened (n + 1)) r') (hidx : rowByteCnt s.cfg.pollFraming k r') :
    (goto c r' u).Inv := by
  subst hk
  exact h.next hbus hown hcfg hbusy (hcnt ▸ hmax) (hcnt ▸ hrow) (hcnt ▸ hidx)

/-- The counted rows RD5 and W8: the row itself for another page byte, the closing row after the last one (R122, R123). -/
theorem RowInv.counted {n : Nat} (hr : r = .rd5 ∧ r' = .rd6 ∨ r = .w8 ∧ r' = .w9) (h : RowInv c r (.opened n) s)
    (hbus : BusAt (.opened (n + 1)) u) (hcfg : u.cfg = s.cfg) (hbusy : u.ctrlBusy = s.ctrlBusy)
    (hcnt : u.byteCnt = s.byteCnt + 1) : (goto c (if s.byteCnt + 1 < 259 then r else r') u).Inv := by
  obtain ⟨hn, hlo, hhi⟩ : n = s.byteCnt + 1 ∧ 3 ≤ s.byteCnt ∧ s.byteCnt < 259 := by
    obtain ⟨rfl, -⟩ | ⟨rfl, -⟩ := hr <;> exact ⟨Framing.opened.inj h.row, h.idx⟩
  have hbus' : Framing.opened (n + 1) = .opened (s.byteCnt + 1 + 1) := congrArg (fun m => Framing.opened (m + 1)) hn
  split
  next hmore =>
    have hidx : 3 ≤ s.byteCnt + 1 ∧ s.byteCnt + 1 < 259 := ⟨by omega, hmore⟩
    obtain ⟨rfl, -⟩ | ⟨rfl, -⟩ := hr <;> exact h.nextByte hbus rfl hcfg hbusy hcnt rfl hmore.le hbus' hidx
  next hlast =>
    have hend : s.byteCnt + 1 = 259 := by omega
    rw [hend] at hbus'
    obtain ⟨rfl, rfl⟩ | ⟨rfl, rfl⟩ := hr <;> exact h.nextByte hbus rfl hcfg hbusy hcnt hend le_rfl hbus' rfl

/-- Leaving the poll from row P4: the end of the command, or row P3 with the frame open (R125, log 15). -/
theorem RowInv.leavePoll (h : RowInv c .p4 f s) : (leavePoll c s).Inv := by
  have hrow := h.row
  have hidx : s.byteCnt = 1 := h.idx
  unfold Machine.leavePoll
  cases hpf : s.cfg.pollFraming with
  | perSample =>
    rw [hpf] at hrow
    obtain rfl : f = .closed := hrow
    exact inv_endCommand ⟨h.bus, h.byteCnt⟩
  | continuous =>
    rw [hpf] at hrow
    exact h.next h.bus rfl rfl rfl h.byteCnt (by rw [hpf]; exact hrow) hidx

/-- Another sample after row P4: from row P0, or from row P2 with the frame open (R125, log 15). -/
theorem RowInv.again (h : RowInv c .p4 f s) : (goto c (againRow s.cfg.pollFraming) s).Inv := by
  have hrow := h.row
  have hidx : s.byteCnt = 1 := h.idx
  cases hpf : s.cfg.pollFraming with
  | perSample =>
    rw [hpf] at hrow
    exact h.next h.bus rfl rfl rfl h.byteCnt hrow trivial
  | continuous =>
    rw [hpf] at hrow
    refine h.next h.bus rfl rfl rfl h.byteCnt ?_ ?_ <;> rw [hpf]
    · show f.openFrom 1
      cases f with
      | opened m => exact Nat.le_of_succ_le hrow
      | closed | broken => exact hrow
    · exact hidx.le

theorem RowInv.pollTest (h : RowInv c .p4 f s) : (pollTest c s).Inv := by
  have counted (b : Bool) : RowInv c .p4 f { s with pollCnt := s.countedSamples, errTimeout := b } :=
    ⟨h.bus.quiet rfl rfl rfl, h.byteCnt, h.busy, h.table, h.row, h.idx⟩
  obtain ⟨-, ht⟩ | ⟨-, -, ht⟩ | ⟨-, -, ht⟩ := pollTest_cases c s
  · exact ht ▸ (counted s.errTimeout).leavePoll
  · exact ht ▸ (counted true).leavePoll
  · exact ht ▸ (counted s.errTimeout).again

/-- Row P3 closes the frame: on to the test, or, in a continuous poll, the end of the command (R125, log 15). -/
theorem RowInv.afterDesel (h : RowInv c .p3 f s) : (afterDesel c (desel s)).Inv := by
  have hrow := h.row
  have hidx : s.byteCnt = 1 := h.idx
  unfold Machine.afterDesel
  rw [desel_cfg]
  cases hpf : s.cfg.pollFraming with
  | perSample =>
    rw [hpf] at hrow
    obtain rfl : f = .opened 2 := hrow
    exact h.next h.bus.desel rfl rfl rfl h.byteCnt (by rw [hpf]; rfl) hidx
  | continuous =>
    rw [hpf] at hrow
    have hbus := h.bus
    cases f with
    | opened m =>
      obtain ⟨m, rfl⟩ : ∃ k, m = k + 1 := Nat.exists_eq_add_of_le' (Nat.le_of_succ_le hrow)
      exact inv_endCommand ⟨hbus.desel, h.byteCnt⟩
    | closed | broken => exact hrow.elim

/-- Row P2 receives a sample and goes on to the row that closes the frame, or to the test with it open (R125, log 15). -/
theorem RowInv.sampled (h : RowInv c .p2 f s) : (goto c (sampledRow s.cfg.pollFraming) (storeSample (xSample s))).Inv := by
  have hrow := h.row
  cases hpf : s.cfg.pollFraming with
  | perSample =>
    rw [hpf] at hrow
    obtain rfl : f = .opened 1 := hrow
    exact h.next h.bus.xSample.storeSample rfl (by simp) (by simp) (by simp) (by rw [hpf]; rfl)
      (by simp [rowByteCnt, sampledRow])
  | continuous =>
    rw [hpf] at hrow
    have hbus := h.bus
    cases f with
    | opened m =>
      exact h.next hbus.xSample.storeSample rfl (by simp) (by simp) (by simp) (by rw [hpf]; exact Nat.succ_le_succ hrow)
        (by simp [rowByteCnt, sampledRow])
    | closed | broken => exact hrow.elim

/-- A row that stands where the invariant says leaves a state that meets it (R20, R120 to R125). -/
theorem RowInv.tickRow (h : RowInv c r f s) : (tickRow c r s).Inv := by
  have ⟨hbus, hcnt, hbusy, htable, hrow, hidx⟩ := h
  cases r with
  | p4 => exact h.pollTest
  | p3 => exact h.afterDesel
  | p2 => exact h.sampled
  | i0 | e0 | e3 | rd0 | w0 | w3 | p0 =>
    obtain rfl : f = .closed := hrow
    exact h.next hbus.sel rfl rfl rfl hcnt rfl trivial
  | i1 | e1 | e4 | rd1 | w1 | w4 =>
    obtain rfl : f = .opened 0 := hrow
    exact h.next (hbus.xOpcode _) rfl (by simp) (by simp) (by simp) rfl (xOpcode_byteCnt ..)
  | p1 =>
    obtain rfl : f = .opened 0 := hrow
    refine h.next (hbus.xOpcode _) rfl (by simp) (by simp) (by simp) ?_ ?_ <;>
      cases s.cfg.pollFraming <;> simp [rowBus, rowByteCnt, Framing.openFrom]
  | e2 | w2 =>
    obtain rfl : f = .opened 1 := hrow
    exact h.next hbus.desel rfl rfl rfl hcnt rfl trivial
  | i2 | i3 | i4 =>
    obtain rfl : f = .opened _ := hrow
    exact h.nextByte (hbus.xFill.storeId _) rfl (xFill_cfg s) (xFill_ctrlBusy s) (xFill_byteCnt s) (congrArg (· + 1) hidx)
      (by decide) rfl rfl
  | rd2 | rd3 | w5 | w6 =>
    obtain rfl : f = .opened _ := hrow
    exact h.nextByte (hbus.xNext _) rfl (xNext_cfg s _) (xNext_ctrlBusy s _) (xNext_byteCnt s _) (congrArg (· + 1) hidx)
      (by decide) rfl rfl
  | rd4 | w7 =>
    obtain rfl : f = .opened _ := hrow
    exact h.nextByte (hbus.xNext _) rfl (xNext_cfg s _) (xNext_ctrlBusy s _) (xNext_byteCnt s _) (congrArg (· + 1) hidx)
      (by decide) rfl ⟨by decide, by decide⟩
  | rd5 =>
    obtain rfl : f = .opened _ := hrow
    exact h.counted (.inl ⟨rfl, rfl⟩) (hbus.xFill.storeRx _) (xFill_cfg s) (xFill_ctrlBusy s) (xFill_byteCnt s)
  | w8 =>
    obtain rfl : f = .opened _ := hrow
    exact h.counted (.inr ⟨rfl, rfl⟩) (hbus.xNext _) (xNext_cfg s _) (xNext_ctrlBusy s _) (xNext_byteCnt s _)
  | i5 =>
    obtain rfl : f = .opened 4 := hrow
    rw [tickRow_i5]
    split
    next hpolls => exact inv_enterPoll ⟨hbus.desel, hcnt⟩ hbusy (by simp [Command.polls, hpolls])
    next => exact inv_endCommand ⟨hbus.desel, hcnt⟩
  | e5 | rd6 | w9 =>
    obtain rfl : f = .opened _ := hrow
    obtain rfl := of_decide_eq_true htable
    exact inv_enterPoll ⟨hbus.desel, hcnt⟩ hbusy (Bool.or_true _)

/-! ### Commands and steps -/

theorem inv_tick (h : s.Inv) : (tick s).Inv := by
  obtain hs | ⟨c, r, hs⟩ := seq_cases s
  · rwa [tick_idle hs]
  · obtain ⟨f, hrow⟩ := inv_at hs h
    rw [tick_at hs]
    exact hrow.tickRow

theorem inv_ticks (n : Nat) (h : s.Inv) : (ticks n s).Inv := by
  induction n generalizing s with
  | zero => exact h
  | succ n ih => exact ih (inv_tick h)

/-- A running command between two of its frames. -/
structure BetweenFrames (s : State) : Prop where
  free : BusFree s
  busy : s.ctrlBusy = true

theorem BetweenFrames.frame {i : Instr} {t : State} (h : BetweenFrames s) (hi : i.isCommand = false) (ht : exec i s = .next t) :
    BetweenFrames t := by
  obtain ⟨⟨-, -, -, -, hbusy, -⟩, -⟩ := framesKeepRegisters i s t hi ht
  exact ⟨h.free.exec_frame hi ht, hbusy.trans h.busy⟩

/-- The first pass of a poll is rows of the poll, so it keeps the invariant as they do. -/
theorem BetweenFrames.pollOnce (h : BetweenFrames s) (hpolls : c.polls s.cfg.identifyPolls = true) : (pollOnce c s).Inv := by
  rw [← ticks_poll]
  exact inv_ticks _ (inv_goto.mpr ⟨.closed, h.free.bus, h.free.byteCnt, h.busy, hpolls, rfl, trivial⟩)

theorem BetweenFrames.enterPoll (h : BetweenFrames s) : BetweenFrames (enterPoll c s) :=
  ⟨⟨h.free.bus.quiet rfl rfl rfl, h.free.byteCnt⟩, h.busy⟩

theorem BetweenFrames.run (h : BetweenFrames s) : (c.run s).Inv := by
  cases c with
  | identify =>
    have hframe := h.frame rfl (exec_jedecId s)
    simp only [Command.run, runIdentify]
    split
    next hpolls => exact hframe.enterPoll.pollOnce (by simp [Command.polls, jedecIdFrame, hpolls])
    next => exact inv_endCommand hframe.free
  | eraseChip =>
    exact ((h.frame rfl (exec_wren s)).frame rfl (exec_chipErase _)).enterPoll.pollOnce (Bool.or_true _)
  | readPage =>
    simp only [Command.run, runReadPage]
    exact (h.frame rfl (exec_read s.pageLatch s)).enterPoll.pollOnce (Bool.or_true _)
  | writePage =>
    simp only [Command.run, runWritePage]
    exact ((h.frame rfl (exec_wren s)).frame rfl (exec_pp s.pageLatch _)).enterPoll.pollOnce (Bool.or_true _)
  | pollUntilReady => exact h.pollOnce (Bool.or_true _)

/-- An accepted command stands at the first row of its table, with the bus free (R16). -/
theorem inv_accept (h : BusFree s) : (accept c s).Inv := by
  have hbus : BusAt .closed (accept c s) := h.bus.quiet rfl rfl rfl
  rw [accept_at]
  cases c with
  | pollUntilReady => exact inv_goto.mpr ⟨_, hbus, h.byteCnt, rfl, Bool.or_true _, rfl, trivial⟩
  | identify | eraseChip | readPage | writePage => exact inv_goto.mpr ⟨_, hbus, h.byteCnt, rfl, rfl, rfl, trivial⟩

/-- Where CTRL_BUSY = 0 the controller is idle and the bus free (R32 (a)). -/
theorem idle_of_not_busy (h : s.Inv) (hb : s.ctrlBusy = false) : s.seq = .idle ∧ BusFree s := by
  obtain hs | ⟨c, r, hs⟩ := seq_cases s
  · exact ⟨hs, ((inv_idle hs).mp h).1⟩
  · obtain ⟨f, hrow⟩ := inv_at hs h
    exact absurd (hb.symm.trans hrow.busy) Bool.false_ne_true

/-- No row stands on a broken framing. -/
theorem rowBus_broken (pf : PollFraming) (n : Nat) (r : Row) : ¬rowBus pf n .broken r := by
  cases r with
  | p2 | p3 | p4 => cases pf <;> simp [rowBus, Framing.openFrom]
  | _ => exact Framing.noConfusion

/-- The framing is never broken (R32 (d)): a reset finds a frame open or none (R173). -/
theorem framing_ne_broken (h : s.Inv) : framing s.trace ≠ .broken := by
  intro hf
  obtain hs | ⟨c, r, hs⟩ := seq_cases s
  · exact Framing.noConfusion (hf.symm.trans ((inv_idle hs).mp h).1.bus.framed)
  · obtain ⟨f, hrow⟩ := inv_at hs h
    obtain rfl : f = .broken := hrow.bus.framed.symm.trans hf
    exact rowBus_broken _ _ _ hrow.row

/-- A reset closes the bus, marking an open frame as cut (R170, R173). -/
theorem inv_resetController (h : s.Inv) : (resetController s).Inv := by
  have hne := framing_ne_broken h
  obtain ⟨-, hcs, -, -⟩ := h
  refine (inv_idle rfl).mpr ⟨⟨⟨rfl, ?_, rfl⟩, Nat.zero_le _⟩, rfl⟩
  rw [resetController_trace, hcs]
  cases hf : framing s.trace with
  | closed => simp [hf]
  | opened n => simp [framing, hf, Framing.after]
  | broken => exact absurd hf hne

/-- The invariant does not speak of the host's moves. -/
theorem inv_withAgenda (rest : List HostMove) (h : s.Inv) : (withAgenda rest s).Inv := h

/-- Settles O51: a step is a row, a command, a frame, a reset or a host write, each of which keeps the invariant. -/
theorem stepKeepsTheInvariant : Obligations.StepKeepsTheInvariant := by
  intro s t hinv h
  cases step_effect h with
  | quiet _ _ _ ht => exact ht ▸ hinv
  | row rest ht => exact ht ▸ inv_tick (inv_withAgenda rest hinv)
  | reset rest _ ht => exact ht ▸ inv_resetController (inv_withAgenda rest hinv)
  | write num v rest _ hw =>
    cases hw with
    | nothing ht => exact ht ▸ hinv
    | command c i hb _ _ ht => exact ht ▸ inv_accept (idle_of_not_busy (inv_withAgenda rest hinv) hb).2
    | pageIndex _ ht | txbuf _ _ ht => exact ht ▸ hinv
  | command c i rest _ hb _ ht =>
    have hfree := (idle_of_not_busy (inv_withAgenda (.wait :: rest) hinv) hb).2
    exact ht ▸ BetweenFrames.run ⟨⟨hfree.bus.quiet rfl rfl rfl, hfree.byteCnt⟩, rfl⟩
  | frame header i rest _ hb hd ht =>
    have hi := isCommand_of_decodeFrame hd
    obtain ⟨hidle, hfree⟩ := idle_of_not_busy (inv_withAgenda rest hinv) hb
    obtain ⟨⟨-, -, -, -, hbusy, -, -, hseq, -⟩, -⟩ := framesKeepRegisters i _ t hi ht
    exact (inv_idle (hseq.trans hidle)).mpr ⟨hfree.exec_frame hi ht, hbusy.trans hb⟩

end Sys2Proof.Machine
end

section
/-! PROOFS. The host's registers by number (R16 to R29), what a step without a host access does, and the state after reset. -/

namespace Sys2Proof.Machine

variable {s : State}

/-! ### Reads and writes by number -/

theorem readValue_idle (num : Nat) (h : s.ctrlBusy = false) : readValue num s = readIdle s (regOf num) := by
  rw [readValue, h, if_neg Bool.false_ne_true]

theorem readValue_ctrlStatus (s : State) : readValue 0x001 s = s.ctrlStatus.setWidth 16 := ite_self _

theorem readValue_cmd (s : State) : readValue 0x000 s = 0 := ite_self _

/-- An unassigned number reads 0 and takes no write, a command running or not (R29, log 12). -/
theorem unassigned {num : Nat} (h : regOf num = none) (v : BitVec 16) (s : State) :
    readValue num s = 0 ∧ hostWrite num v s = s := by
  unfold readValue hostWrite
  rw [h]
  exact ⟨ite_self _, ite_self _⟩

/-- The index of a register within its array, from its number (R29). -/
theorem ofNat_add_sub {n : Nat} [NeZero n] (base : Nat) (i : Fin n) : Fin.ofNat n (base + i.val - base) = i := by
  rw [Nat.add_sub_cancel_left, Fin.ofNat_val_eq_self]

theorem regOf_id (i : Fin 3) : regOf (0x004 + i.val) = some (.id i) := by
  unfold regOf
  rw [if_neg (by omega), if_neg (by omega), if_neg (by omega), if_pos (by omega), ofNat_add_sub]

theorem regOf_txbuf (i : Fin 256) : regOf (0x100 + i.val) = some (.txbuf i) := by
  unfold regOf
  rw [if_neg (by omega), if_neg (by omega), if_neg (by omega), if_neg (by omega), if_pos (by omega), ofNat_add_sub]

theorem regOf_rxbuf (i : Fin 256) : regOf (0x200 + i.val) = some (.rxbuf i) := by
  unfold regOf
  rw [if_neg (by omega), if_neg (by omega), if_neg (by omega), if_neg (by omega), if_neg (by omega), if_pos (by omega),
    ofNat_add_sub]

theorem regOf_unassigned {num : Nat} (h : num = 0x003 ∨ (0x007 ≤ num ∧ num < 0x100) ∨ 0x300 ≤ num) : regOf num = none := by
  unfold regOf
  rw [if_neg (by omega), if_neg (by omega), if_neg (by omega), if_neg (by omega), if_neg (by omega), if_neg (by omega)]

/-- CTRL_STATUS as its two flags, zeros above (R22, R28). -/
theorem ctrlStatus_setWidth (s : State) : s.ctrlStatus.setWidth 16 =
    (BitVec.ofBool (s.errTimeout && s.cfg.pollLimit.isSome) ++ BitVec.ofBool s.ctrlBusy).setWidth 16 := by
  unfold State.ctrlStatus State.timeoutFlag
  cases s.errTimeout && s.cfg.pollLimit.isSome <;> cases s.ctrlBusy <;> rfl

/-- A bit of CTRL_STATUS: one flag in each of the two low bits (R22, R28). -/
theorem ctrlStatus_getLsbD (s : State) (j : Nat) : s.ctrlStatus.getLsbD j =
    if j < 1 then (BitVec.ofBool s.ctrlBusy).getLsbD j
    else if j - 1 < 1 then (BitVec.ofBool s.timeoutFlag).getLsbD (j - 1) else (0#6).getLsbD (j - 1 - 1) := by
  rw [← BitVec.getLsbD_append, ← BitVec.getLsbD_append]
  rfl

/-- Settles O40: the two low bits are the flags, and above them stands `0#6`. -/
theorem controlStatusBits : Obligations.ControlStatusBits := by
  intro s
  refine ⟨?_, ?_, fun j hj => ?_⟩ <;> rw [ctrlStatus_getLsbD]
  · simp
  · simp [State.timeoutFlag]
  · rw [if_neg (by omega), if_neg (by omega), BitVec.getLsbD_zero]

/-- Settles O39: each number's register (`regOf_*`), then the read or write of that register. -/
theorem registerMap : Obligations.RegisterMap := by
  refine ⟨fun s v b hb => ⟨?_, ?_, ?_, ?_, ?_, ?_, ?_⟩, fun s => ⟨readValue_cmd s, fun num v h => ?_⟩⟩
  · exact readValue_idle 0x002 hb
  · rw [readValue_ctrlStatus, ctrlStatus_setWidth]
  · intro i
    rw [readValue_idle _ hb, regOf_id, readIdle]
  · intro i
    rw [readValue_idle _ hb, readValue_idle _ hb, hostWrite_idle _ _ hb, hostWrite_idle _ _ hb, regOf_txbuf, regOf_rxbuf]
    refine ⟨rfl, rfl, ?_, rfl⟩
    rw [writeReg, BitVec.setWidth_setWidth_of_le _ (by decide), BitVec.setWidth_eq]
  · exact hostWrite_idle 0x001 v hb
  · exact hostWrite_idle 0x002 v hb
  · intro i
    rw [hostWrite_idle _ _ hb, regOf_id, writeReg]
  · exact unassigned (regOf_unassigned h) v s

/-- A write of CMD while idle starts the command of its code (R16). -/
theorem hostWrite_cmd (code : Byte) (h : s.ctrlBusy = false) : hostWrite 0x000 (code.setWidth 16) s = startCommand code s := by
  rw [hostWrite_idle _ _ h]
  exact congrArg (startCommand · s) ((BitVec.setWidth_setWidth_of_le _ (by decide)).trans (BitVec.setWidth_eq code))

/-- The code of each command decodes to that command, which is accepted (R85). -/
theorem startCommand_code (c : Command) (s : State) : startCommand c.code s = accept c s := by
  cases c <;> rfl

/-- A code of no command changes nothing (R87). -/
theorem startCommand_reserved {code : Byte} (h : ∀ c : Command, code ≠ c.code) (s : State) : startCommand code s = s := by
  obtain hs | ⟨i, -, hd, -⟩ := startCommand_cases code s
  · exact hs
  · obtain ⟨c, -, hc⟩ := decodeCommand_ok hd
    exact absurd hc (h c)

/-- Settles O23: a code is a command's, which is accepted, or none's. -/
theorem commandAcceptance : Obligations.CommandAcceptance := by
  refine ⟨fun s code hb => ?_, readValue_cmd⟩
  rw [hostWrite_cmd code hb]
  refine ⟨fun c r hmem => ?_, fun hnot => startCommand_reserved (fun c hc => hnot ?_) s⟩
  · obtain ⟨rfl, rfl⟩ : code = c.code ∧ r = firstRow c := by
      simp only [List.mem_cons, Prod.mk.injEq, List.not_mem_nil, or_false] at hmem
      rcases hmem with ⟨rfl, rfl, rfl⟩ | ⟨rfl, rfl, rfl⟩ | ⟨rfl, rfl, rfl⟩ | ⟨rfl, rfl, rfl⟩ | ⟨rfl, rfl, rfl⟩ <;>
        exact ⟨rfl, rfl⟩
    rw [startCommand_code]
    rfl
  · subst hc
    cases c <;> decide

/-! ### Steps -/

theorem step_done {t : State} (h : fetch s = .done t) : step s = .next t := by rw [step, h]

/-- Settles O41: a write is dropped at the test of CTRL_BUSY, and `fetch` finds nothing else to do where a step carries an
access. -/
theorem hostAccessWhileBusy : Obligations.HostAccessWhileBusy := by
  refine ⟨fun num v s h => hostWrite_busy num v h, fun s _ => readValue_ctrlStatus s, ?_, ?_⟩
  · intro num v rest s h
    exact step_done (by rw [fetch, h]; rfl)
  · intro num rest s h
    exact step_done (by rw [fetch, h]; rfl)

/-- Settles O49: what `fetch` finds to do for each of the agendas, a finished wait being a read of CTRL_STATUS. -/
theorem stepRunsOneRow : Obligations.StepRunsOneRow := by
  intro s rest
  refine ⟨fun h => ?_, fun h => ?_, fun h hb => ?_, fun h hb => ⟨hostRead 0x001 (withAgenda rest s), ?_, rfl, ?_, rfl, rfl⟩⟩
  · exact step_done (by rw [fetch, h])
  · exact step_done (by rw [fetch, h]; rfl)
  · exact step_done (by simp only [fetch, h, fetchWait, hb, if_true])
  · exact step_done (by simp only [fetch, h, fetchWait, hb, Bool.false_eq_true, if_false])
  · exact readValue_ctrlStatus (withAgenda rest s)

/-! ### Reset -/

/-- Settles O43: the values stand in `State.reset` and `Config.default`. -/
theorem resetValues : Obligations.ResetValues := ⟨rfl, rfl, rfl, rfl, rfl, rfl, rfl, rfl, rfl, rfl, rfl, rfl, rfl⟩

/-- Settles O52: after reset the controller is idle with the bus free, the array lists no byte, and no frame is open. -/
theorem resetMeetsTheInvariant : Obligations.ResetMeetsTheInvariant :=
  ⟨(inv_idle rfl).mpr ⟨⟨⟨rfl, rfl, rfl⟩, Nat.zero_le _⟩, rfl⟩, rfl, rfl⟩

end Sys2Proof.Machine
end

section
/-! PROOFS. What the reference responder makes of each whole frame (R60 to R66), and the claims about one frame. -/

namespace Sys2Proof.Machine

/-! ### The status byte and the sample (R61) -/

/-- The busy bit of the byte a responder answers is its busy bit, whatever the other bits are (R26, R61). -/
theorem busyBit_statusByte {mask : Byte} (hmask : mask ≠ 0) (free : Byte) (busy : Bool) :
    busyBit mask (statusByte mask free busy) = busy := by
  have hclear : free &&& ~~~mask &&& mask = 0#8 := by
    rw [BitVec.and_assoc, BitVec.and_comm (~~~mask), BitVec.and_not_self]
    exact BitVec.and_zero
  cases busy with
  | false => simp [busyBit, statusByte, hclear]
  | true =>
    have hset : ((free &&& ~~~mask) ||| mask) &&& mask = mask := by
      ext i
      cases hm : mask[i] <;> simp [hm]
    simpa [busyBit, statusByte, hset] using hmask

/-- The open frame has no part in a status answer. -/
theorem Responder.status_frame (c : Config) (f : Byte) (fr : Option (List Byte)) (r : Responder) :
    ({ r with frame := fr } : Responder).status c f = ((r.status c f).1, { (r.status c f).2 with frame := fr }) := by
  simp only [Responder.status, Responder.settle]
  split
  · rfl
  · dsimp only
    split <;> rfl

/-- An operation with no busy sample left completes at the sample, which reads not-busy (R61 (1)). -/
theorem Responder.status_last {c : Config} {r : Responder} (f : Byte) (hb : r.busy = true) (hr : r.remaining = .samples 0) :
    r.status c f = (statusByte c.busyMask f false, r.complete c) := by
  simp [Responder.status, Responder.settle, hb, hr, Responder.complete]

/-- A sample with more to come reads busy and is counted down (R61 (2), (3)). -/
theorem Responder.status_busy {c : Config} {r : Responder} (f : Byte) (hb : r.busy = true) (hr : r.remaining ≠ .samples 0) :
    r.status c f = (statusByte c.busyMask f true, { r with remaining := r.remaining.less }) := by
  simp [Responder.status, Responder.settle, hb, hr]

/-- A sample of the ready responder reads not-busy and changes nothing (R61). -/
theorem Responder.status_ready {c : Config} {r : Responder} (f : Byte) (hb : r.busy = false) :
    r.status c f = (statusByte c.busyMask f false, r) := by
  simp [Responder.status, Responder.settle, hb]

/-! ### The effect of a frame at `Desel` -/

variable {c : Config} {r : Responder} (free : Option Nat)

theorem Responder.closeFrame_busy (hb : r.busy = true) (op : Byte) (args : List Byte) :
    r.closeFrame c free op args = .responder r := if_pos hb

theorem Responder.closeFrame_answered {op : Byte} (hop : op = opRdsr1 ∨ op = opJedecId ∨ op = opRead) (args : List Byte) :
    r.closeFrame c free op args = .responder r := by
  rw [Responder.closeFrame, if_pos hop, ite_self]

theorem Responder.closeFrame_wren (hb : r.busy = false) (args : List Byte) :
    r.closeFrame c free opWren args = .responder { r with wel := true } := by
  simp [Responder.closeFrame, hb]

theorem Responder.closeFrame_wrdi (hb : r.busy = false) (args : List Byte) :
    r.closeFrame c free opWrdi args = .responder { r with wel := false } := by
  simp [Responder.closeFrame, hb]

theorem Responder.closeFrame_chipErase (hb : r.busy = false) (args : List Byte) :
    r.closeFrame c free opChipErase args = .responder (if r.wel then r.begin free .erase else r) := by
  simp [Responder.closeFrame, hb]

/-- A program frame to a page of the chip (R62). -/
theorem Responder.closeFrame_pp (hb : r.busy = false) {p : PageIndex} (hp : hasPage c p) {data : List Byte}
    (hlen : data.length = 256) :
    r.closeFrame c free opPp (hiByte p :: loByte p :: 0x00 :: data) =
      .responder (if r.wel then r.begin free (.program (pageAddress p) data) else r) := by
  have hfit : pageAddress p + data.length ≤ c.capacity := hlen ▸ hasPage_fits hp
  have hframe (args : List Byte) : r.closeFrame c free opPp args = r.closeProgram c free args := by
    simp [Responder.closeFrame, hb]
  rw [hframe, Responder.closeProgram, addressOf_toNat, if_pos hfit]

/-! ### Whole frames on the responder -/

variable {s : State}

/-- A frame the responder only listens to acts on it at `Desel` alone (R59, R101). -/
theorem frameDev_listens (hd : s.dev = .responder r) {op : Byte} (outs : List Byte) (hl : r.listens op) :
    s.frameDev (op :: outs) =
      ({ r with frame := none } : Responder).closeFrame s.cfg (Config.freeBusy (s.freeCtr + (op :: outs).length)) op outs := by
  rw [State.frameDev, hd, Responder.exchange_whole _ _ _ _ _ hl]
  rfl

/-- A busy responder hears a frame other than a status read and does nothing (R66). -/
theorem frameDev_busy (hd : s.dev = .responder r) (hb : r.busy = true) {op : Byte} (outs : List Byte) (hop : op ≠ opRdsr1) :
    s.frameDev (op :: outs) = .responder { r with frame := none } := by
  rw [frameDev_listens hd outs ⟨hop, .inl hb⟩]
  exact Responder.closeFrame_busy _ (r := { r with frame := none }) hb _ _

theorem opFrame_dev (op : Byte) (s : State) : (opFrame op s).dev = s.frameDev [op] := (frameRun_opFrame op s).1.dev

theorem opFrame_wren_dev (h : s.readyResponder r) : (opFrame opWren s).dev = .responder { r with wel := true, frame := none } := by
  obtain ⟨hd, hb⟩ := h
  rw [opFrame_dev, frameDev_listens hd _ (by simp [Responder.listens])]
  exact Responder.closeFrame_wren _ (r := { r with frame := none }) hb _

theorem opFrame_wrdi_dev (h : s.readyResponder r) :
    (opFrame opWrdi s).dev = .responder { r with wel := false, frame := none } := by
  obtain ⟨hd, hb⟩ := h
  rw [opFrame_dev, frameDev_listens hd _ (by simp [Responder.listens])]
  exact Responder.closeFrame_wrdi _ (r := { r with frame := none }) hb _

/-- An erase frame starts the erase where the latch is set (R64). -/
theorem opFrame_chipErase_dev (h : s.readyResponder r) : ∃ free, (opFrame opChipErase s).dev =
    .responder (if r.wel then ({ r with frame := none } : Responder).begin free .erase else { r with frame := none }) := by
  obtain ⟨hd, hb⟩ := h
  rw [opFrame_dev, frameDev_listens hd _ (by simp [Responder.listens])]
  exact ⟨_, Responder.closeFrame_chipErase _ (r := { r with frame := none }) hb _⟩

/-- A program frame starts the program of TXBUF where the latch is set (R62). -/
theorem ppFrame_dev (h : s.readyResponder r) {p : PageIndex} (hp : hasPage s.cfg p) : ∃ free, (ppFrame p s).dev =
    .responder (if r.wel then ({ r with frame := none } : Responder).begin free (.program (pageAddress p) (txBytes s))
      else { r with frame := none }) := by
  obtain ⟨hd, hb⟩ := h
  rw [(frameRun_pp p s).1.dev, List.cons_append, frameDev_listens hd _ (by simp [Responder.listens])]
  exact ⟨_, Responder.closeFrame_pp _ (r := { r with frame := none }) hb hp (by simp [txBytes])⟩

/-- A read frame of a page of the chip: its bytes come into RXBUF and the device is as it was (R60). -/
theorem readFrame_page (h : s.readyResponder r) {p : PageIndex} (hp : hasPage s.cfg p) :
    (∀ i : Fin 256, (readFrame p s).rxbuf[i] = Memory.read r.mem (pageAddress p + i.val)) ∧
      (readFrame p s).dev = .responder { r with frame := none } := by
  obtain ⟨hd, hb⟩ := h
  obtain ⟨run, hrx, -⟩ := frameRun_read p s
  obtain ⟨hbytes, hdev⟩ := Responder.exchange_page s.cfg s.freeCtr p s.cfg.dummyByte r hb hp
  constructor
  · intro i
    have hi := hrx i
    rw [State.frameIn, hd, Nat.add_comm, ← List.getElem?_drop, hbytes] at hi
    simpa using hi.symm
  · rw [run.dev, State.frameDev, hd, hdev]
    exact Responder.closeFrame_answered _ (r := { r with frame := none }) (.inr (.inr rfl)) _

/-- The ready responder answers the three bytes after the identify opcode with its identification (R61). -/
theorem Responder.exchange_jedecId (n : Nat) (o : Byte) (hb : r.busy = false) : ∃ b,
    Device.exchange c n [opJedecId, o, o, o] (Device.responder r).opened =
      ([b, c.jedecMfr, c.jedecType, c.jedecCap], .responder { r with frame := some [opJedecId, o, o, o] }) :=
  ⟨Config.freeByte n, by simp [Device.exchange, Device.opened, Device.answer, Responder.answerIn, hb, jedecByte]⟩

/-- An identify frame on the ready responder (R61). -/
theorem jedecIdFrame_ready (h : s.readyResponder r) :
    (jedecIdFrame s).id = #v[s.cfg.jedecMfr, s.cfg.jedecType, s.cfg.jedecCap] ∧
      (jedecIdFrame s).dev = .responder { r with frame := none } := by
  obtain ⟨hd, hb⟩ := h
  obtain ⟨run, hid, -⟩ := frameRun_jedecId s
  obtain ⟨b, hx⟩ := Responder.exchange_jedecId (c := s.cfg) s.freeCtr s.cfg.dummyByte hb
  constructor
  · rw [State.frameIn, hd, hx] at hid
    exact Vector.toList_inj.mp hid.symm
  · rw [run.dev, State.frameDev, hd, hx]
    exact Responder.closeFrame_answered _ (r := { r with frame := none }) (.inr (.inl rfl)) _

/-- A transfer in an open status frame is a sample of the responder (R61, log 25). -/
theorem storeSample_xSample {args : List Byte} (hd : s.dev = .responder r) (hfr : r.frame = some (opRdsr1 :: args)) : ∃ f,
    (storeSample (xSample s)).sample = (r.status s.cfg f).1 ∧ (storeSample (xSample s)).dev =
      .responder { (r.status s.cfg f).2 with frame := some (opRdsr1 :: args ++ [s.cfg.dummyByte]) } := by
  refine ⟨Config.freeByte s.freeCtr, ?_⟩
  rw [storeSample_sample, xSample_shi, storeSample_dev, xSample_dev, State.answer, hd, Responder.answer_status _ _ _ _ _ hfr,
    Responder.status_frame]
  exact ⟨rfl, rfl⟩

/-- The opcode of a frame is received and nothing else of the responder moves (R59). -/
theorem xOpcode_sel_dev (hd : s.dev = .responder r) (op : Byte) :
    (xOpcode op (sel s)).dev = .responder { r with frame := some [op] } := by
  rw [xOpcode_dev, State.answer, sel_dev, hd, Device.opened, Responder.answer_opcode _ _ _ _ rfl]

/-- The status phase of a status frame: its second byte is a sample of the responder, its frame left open (R61, R114). -/
theorem statusPhase_sample (hd : s.dev = .responder r) : ∃ f,
    (statusPhase s).sample = (r.status s.cfg f).1 ∧
      (statusPhase s).dev = .responder { (r.status s.cfg f).2 with frame := some [opRdsr1, s.cfg.dummyByte] } := by
  obtain ⟨f, hsample, hdev⟩ := storeSample_xSample (xOpcode_sel_dev hd opRdsr1) rfl
  rw [Responder.status_frame, xOpcode_cfg, sel_cfg] at hsample hdev
  exact ⟨f, hsample, hdev⟩

/-- A status frame: a sample of the responder, its frame closed without further effect (R61, R114). -/
theorem rdsr1Frame_sample (hd : s.dev = .responder r) : ∃ f,
    (rdsr1Frame s).sample = (r.status s.cfg f).1 ∧
      (rdsr1Frame s).dev = .responder { (r.status s.cfg f).2 with frame := none } := by
  obtain ⟨f, hsample, hdev⟩ := statusPhase_sample hd
  refine ⟨f, hsample, ?_⟩
  rw [rdsr1Frame, desel_dev, hdev]
  exact Responder.closeFrame_answered _ (r := { (r.status s.cfg f).2 with frame := none }) (.inl rfl) _

/-! ### The claims -/

/-- Settles O17. -/
theorem writeEnableLatch : Obligations.WriteEnableLatch := fun s _ h =>
  ⟨⟨_, exec_wren s, opFrame_wren_dev h⟩, ⟨_, exec_wrdi s, opFrame_wrdi_dev h⟩⟩

/-- Settles O16. -/
theorem readReturnsThePage : Obligations.ReadReturnsThePage := fun p s _ h hp =>
  ⟨_, exec_read p s, readFrame_page h hp⟩

/-- Settles O18: at `Desel` the latch decides whether the operation begins. -/
theorem programAndEraseStart : Obligations.ProgramAndEraseStart := by
  intro s r h
  refine ⟨fun p hp => ⟨_, exec_pp p s, ?_⟩, ⟨_, exec_chipErase s, ?_⟩⟩
  · obtain ⟨free, hdev⟩ := ppFrame_dev h hp
    rw [hdev]
    exact ⟨fun hw => by rw [hw]; rfl, fun hw => ⟨free, by rw [hw]; rfl⟩⟩
  · obtain ⟨free, hdev⟩ := opFrame_chipErase_dev h
    rw [hdev]
    exact ⟨fun hw => by rw [hw]; rfl, fun hw => ⟨free, by rw [hw]; rfl⟩⟩

/-- Settles O15: the three cases of a status sample, and the identify frame. -/
theorem identifyAndStatusAnswers : Obligations.IdentifyAndStatusAnswers := by
  intro s r hd
  refine ⟨fun hb => ⟨_, exec_jedecId s, jedecIdFrame_ready ⟨hd, hb⟩⟩, fun hmask => ⟨_, exec_rdsr1 s, ?_⟩⟩
  obtain ⟨f, hsample, hdev⟩ := rdsr1Frame_sample hd
  rw [hsample, hdev]
  refine ⟨fun ⟨hb, hr⟩ => ?_, fun ⟨hb, hr⟩ => ?_, fun hb => ?_⟩
  · rw [Responder.status_last f hb hr]
    exact ⟨busyBit_statusByte hmask f false, rfl⟩
  · rw [Responder.status_busy f hb hr]
    exact ⟨busyBit_statusByte hmask f true, rfl⟩
  · rw [Responder.status_ready f hb]
    exact ⟨busyBit_statusByte hmask f false, rfl⟩

/-- Settles O19: a busy responder only listens to the frame, and its end has no effect on it. -/
theorem busyDeviceIgnoresFrames : Obligations.BusyDeviceIgnoresFrames := by
  intro i s r hi hn hd hb
  have ignores {op : Byte} (outs : List Byte) (hop : op ≠ opRdsr1) := frameDev_busy hd hb outs hop
  cases i with
  | identify | eraseChip | readPage | writePage | pollUntilReady => cases hi
  | rdsr1 => exact absurd rfl hn
  | jedecId => exact ⟨_, exec_jedecId s, (frameRun_jedecId s).1.dev.trans (ignores _ (by decide))⟩
  | wren | wrdi | chipErase => exact ⟨_, rfl, (opFrame_dev _ s).trans (ignores _ (by decide))⟩
  | read p => exact ⟨_, exec_read p s, (frameRun_read p s).1.dev.trans (ignores _ (by decide))⟩
  | pp p => exact ⟨_, exec_pp p s, (frameRun_pp p s).1.dev.trans (ignores _ (by decide))⟩

end Sys2Proof.Machine
end

section
/-! PROOFS. The device array: its canonical form and the device's step with CS_N over every step, and which frames and commands
leave every byte of it. -/

namespace Sys2Proof.Machine

/-! ### Over every step -/

theorem busKept_memWf : BusKept fun s => s.memWf = true where
  sel _ h := Device.arrayWf_opened h
  desel _ h := Device.arrayWf_closed _ h
  xByte o s h := by
    rw [State.memWf, xByte_dev, xByte_cfg]
    exact Device.arrayWf_answer _ o h
  reset s h := by
    rw [State.memWf, resetController_dev, resetController_cfg, State.devAfterReset]
    split
    · exact h
    · exact Device.arrayWf_cut _ _ h
  quiet s t hcfg hdev _ h := by rwa [State.memWf, hcfg, hdev]

/-- Settles O53: the transport primitives and the reset keep the array canonical, so every step does. -/
theorem stepKeepsTheArrayCanonical : Obligations.StepKeepsTheArrayCanonical := fun _ _ hwf h => busKept_memWf.step h hwf

theorem busKept_devInSync : BusKept fun s => s.devInSync = true where
  sel s _ := Device.inSync_opened s.dev
  desel s _ := Device.inSync_closed s.cfg s.dev _
  xByte o s h := by
    rw [State.devInSync, xByte_dev, xByte_csN]
    exact Device.inSync_answer _ o h
  reset s h := by
    rw [State.devInSync, resetController_dev, resetController_csN, State.devAfterReset]
    split
    next hcs => rwa [State.devInSync, hcs] at h
    next => exact Device.inSync_cut _ _ _ _
  quiet s t _ hdev hcs h := by rwa [State.devInSync, hdev, hcs]

/-- Settles O54: `Sel` opens the responder's frame, `Desel` and the reset close it, so every step keeps it in step with CS_N. -/
theorem stepKeepsTheDeviceInStep : Obligations.StepKeepsTheDeviceInStep := fun _ _ hsync h => busKept_devInSync.step h hsync

/-- A supplied bus stays one; it has no array (R103). -/
theorem busKept_script : BusKept fun s => ∃ l, s.dev = .script l where
  sel s h := by
    obtain ⟨l, hl⟩ := h
    exact ⟨l, by rw [sel_dev, hl, Device.opened]⟩
  desel s h := by
    obtain ⟨l, hl⟩ := h
    exact ⟨l, by rw [desel_dev, hl, Device.closed]⟩
  xByte o s h := by
    obtain ⟨l, hl⟩ := h
    refine ⟨l.tail, ?_⟩
    rw [xByte_dev, State.answer, hl]
    cases l <;> rfl
  reset s h := by
    obtain ⟨l, hl⟩ := h
    exact ⟨l, by rw [resetController_dev, State.devAfterReset, hl, Device.cut, ite_self]⟩
  quiet s t _ hdev _ h := by rwa [hdev]

/-! ### Programming (R62) -/

/-- Settles O21: a byte outside the data is left alone both times, and inside it `AND` with the same byte is idempotent. -/
theorem programTwiceIsProgramOnce : Obligations.ProgramTwiceIsProgramOnce := by
  intro m a d x hm
  have hm' := Memory.wf_program m a d hm
  by_cases hx : x < a ∨ a + d.length ≤ x
  · exact Memory.read_program_outside _ a d hm' x hx
  · obtain ⟨k, rfl⟩ := Nat.exists_eq_add_of_le (show a ≤ x by omega)
    have hk : k < d.length := by omega
    rw [Memory.read_program_inside _ a d hm' k hk, Memory.read_program_inside m a d hm k hk, BitVec.and_assoc,
      BitVec.and_self]

/-! ### What leaves every byte of the array -/

variable {s t u : State} {r r' : Responder}

/-- The ready responder's array is in canonical form where the state's memory is. -/
theorem wf_of_memWf (hd : s.dev = .responder r) (h : s.memWf = true) : Memory.wf r.mem = true := by
  rw [State.memWf, hd, Device.arrayWf, Bool.and_eq_true, Bool.and_eq_true] at h
  exact h.1.1

theorem peek_responder (hd : s.dev = .responder r) (a : Nat) :
    s.peek a = if a < s.cfg.capacity then some (Memory.read r.mem a) else none := by
  rw [State.peek, hd]

theorem sameArray_of_mem (hd : s.dev = .responder r) (hd' : t.dev = .responder r') (hmem : r'.mem = r.mem)
    (hcfg : t.cfg = s.cfg) : s.SameArray t := fun a => by
  rw [peek_responder hd', peek_responder hd, hmem, hcfg]

theorem sameArray_of_script (h : ∃ l, s.dev = .script l) (h' : ∃ l, t.dev = .script l) : s.SameArray t := fun a => by
  obtain ⟨l, hl⟩ := h
  obtain ⟨l', hl'⟩ := h'
  rw [State.peek, State.peek, hl, hl']

theorem State.SameArray.trans (h : s.SameArray t) (k : t.SameArray u) : s.SameArray u := fun a => (k a).trans (h a)

/-- A wire frame on a ready responder leaves the array, if its page is in the chip: a program or an erase only starts (R60 to
R64). -/
theorem frame_mem_of_ready {i : Instr} (hi : i.isCommand = false) (h : s.readyResponder r)
    (hp : ∀ p, i = .read p ∨ i = .pp p → hasPage s.cfg p) :
    ∃ t r', exec i s = .next t ∧ t.dev = .responder r' ∧ r'.mem = r.mem := by
  cases i with
  | identify | eraseChip | readPage | writePage | pollUntilReady => cases hi
  | jedecId => exact ⟨_, _, exec_jedecId s, (jedecIdFrame_ready h).2, rfl⟩
  | wren => exact ⟨_, _, exec_wren s, opFrame_wren_dev h, rfl⟩
  | wrdi => exact ⟨_, _, exec_wrdi s, opFrame_wrdi_dev h, rfl⟩
  | chipErase =>
    obtain ⟨free, hdev⟩ := opFrame_chipErase_dev h
    exact ⟨_, _, exec_chipErase s, hdev, by split <;> rfl⟩
  | rdsr1 =>
    obtain ⟨f, -, hdev⟩ := rdsr1Frame_sample h.1
    exact ⟨_, _, exec_rdsr1 s, hdev, by rw [Responder.status_ready f h.2]⟩
  | read p => exact ⟨_, _, exec_read p s, (readFrame_page h (hp p (.inl rfl))).2, rfl⟩
  | pp p =>
    obtain ⟨free, hdev⟩ := ppFrame_dev h (hp p (.inr rfl))
    exact ⟨_, _, exec_pp p s, hdev, by split <;> rfl⟩

/-- A wire frame on a busy responder leaves the array, but a status read that finds its operation done (R61, R66). -/
theorem frame_mem_of_busy {i : Instr} (hi : i.isCommand = false) (hd : s.dev = .responder r) (hb : r.busy = true)
    (hr : i = .rdsr1 → r.remaining ≠ .samples 0) : ∃ t r', exec i s = .next t ∧ t.dev = .responder r' ∧ r'.mem = r.mem := by
  by_cases hstatus : i = .rdsr1
  · subst hstatus
    obtain ⟨f, -, hdev⟩ := rdsr1Frame_sample hd
    exact ⟨_, _, exec_rdsr1 s, hdev, by rw [Responder.status_busy f hb (hr rfl)]⟩
  · obtain ⟨t, ht, hdev⟩ := busyDeviceIgnoresFrames i s r hi hstatus hd hb
    exact ⟨t, _, ht, hdev, rfl⟩

/-- Settles O14: a supplied bus has no array; a responder is ready or busy. -/
theorem framesKeepTheArray : Obligations.FramesKeepTheArray := by
  intro i s t hi ht hcond
  obtain ⟨⟨hcfg, -⟩, -⟩ := framesKeepRegisters i s t hi ht
  cases hd : s.dev with
  | script l => exact sameArray_of_script ⟨l, hd⟩ (busKept_script.exec ht ⟨l, hd⟩)
  | responder r =>
    obtain ⟨hstatus, hpage⟩ := hcond r hd
    obtain ⟨t', r', ht', hd', hmem⟩ : ∃ t r', exec i s = .next t ∧ t.dev = .responder r' ∧ r'.mem = r.mem := by
      cases hb : r.busy with
      | false => exact frame_mem_of_ready hi ⟨hd, hb⟩ fun p hp => (hpage p hp).resolve_left (by simp [hb])
      | true => exact frame_mem_of_busy hi hd hb fun hi hr => hstatus hi ⟨hb, hr⟩
    obtain rfl := Host.Outcome.next.inj (ht.symm.trans ht')
    exact sameArray_of_mem hd hd' hmem hcfg

/-! ### Host commands up to the first poll decision -/

theorem pollTest_dev (c : Command) (s : State) : (pollTest c s).dev = s.dev := by rw [pollTest_eq]

theorem pollTest_cfg (c : Command) (s : State) : (pollTest c s).cfg = s.cfg := by rw [pollTest_eq]

/-- One pass of the poll takes one sample of the responder (R61, R125). -/
theorem pollOnce_dev (c : Command) (hd : s.dev = .responder r) :
    ∃ f fr, (pollOnce c s).dev = .responder { (r.status s.cfg f).2 with frame := fr } := by
  obtain ⟨u, ⟨-, rfl⟩ | ⟨-, rfl⟩, -, -, hdev, -⟩ := pollOnce_bus c s
  · obtain ⟨f, -, hsample⟩ := rdsr1Frame_sample hd
    exact ⟨f, _, hdev.trans hsample⟩
  · obtain ⟨f, -, hsample⟩ := statusPhase_sample hd
    exact ⟨f, _, hdev.trans hsample⟩

theorem pollOnce_cfg (c : Command) (s : State) : (pollOnce c s).cfg = s.cfg := by
  obtain ⟨u, ⟨-, rfl⟩ | ⟨-, rfl⟩, -, -, -, -, hcfg⟩ := pollOnce_bus c s
  · exact hcfg.trans (frameRun_rdsr1 s).1.operands.1
  · exact hcfg.trans (statusPhase_keeps s).1.1

/-- A sample leaves the array as it is, or applies the operation in flight to it (R61). -/
theorem Responder.status_mem (c : Config) (f : Byte) (r : Responder) :
    (r.status c f).2.mem = r.mem ∨ r.busy = true ∧ (r.status c f).2.mem = (r.complete c).mem := by
  cases hb : r.busy with
  | false => exact .inl (by rw [Responder.status_ready f hb])
  | true =>
    by_cases hr : r.remaining = .samples 0
    · exact .inr ⟨rfl, by rw [Responder.status_last f hb hr]⟩
    · exact .inl (by rw [Responder.status_busy f hb hr])

/-- A poll of a ready responder leaves the array (R61). -/
theorem sameArray_pollOnce (c : Command) (h : s.readyResponder r) : s.SameArray (pollOnce c s) := by
  obtain ⟨f, fr, hdev⟩ := pollOnce_dev c h.1
  rw [Responder.status_ready f h.2] at hdev
  exact sameArray_of_mem h.1 hdev rfl (pollOnce_cfg c s)

/-- Entering the poll touches nothing on the bus (R125). -/
theorem sameArray_poll (c : Command) (h : s.readyResponder r) : s.SameArray (pollOnce c (enterPoll c s)) :=
  sameArray_pollOnce (s := enterPoll c s) c h

theorem poll_dev (c : Command) (hd : s.dev = .responder r) :
    ∃ f fr, (pollOnce c (enterPoll c s)).dev = .responder { (r.status s.cfg f).2 with frame := fr } :=
  pollOnce_dev (s := enterPoll c s) c hd

theorem poll_cfg (c : Command) (s : State) : (pollOnce c (enterPoll c s)).cfg = s.cfg := pollOnce_cfg c (enterPoll c s)

/-- The frames of WRITE_PAGE start its program: WREN has set the latch (R63, R123). -/
theorem writePage_started (h : s.readyResponder r) {p : PageIndex} (hp : hasPage s.cfg p) :
    ∃ free, (ppFrame p (opFrame opWren s)).dev = .responder
      (({ r with wel := true, frame := none } : Responder).begin free (.program (pageAddress p) (txBytes s))) := by
  obtain ⟨⟨hcfg, -, htx, -⟩, -⟩ := framesKeepRegisters .wren s _ rfl (exec_wren s)
  have hready : (opFrame opWren s).readyResponder { r with wel := true, frame := none } := ⟨opFrame_wren_dev h, h.2⟩
  obtain ⟨free, hdev⟩ := ppFrame_dev hready (hcfg ▸ hp)
  rw [txBytes, htx] at hdev
  exact ⟨free, hdev⟩

/-- The frames of ERASE_CHIP start the erase: WREN has set the latch (R63, R121). -/
theorem eraseChip_started (h : s.readyResponder r) : ∃ free, (opFrame opChipErase (opFrame opWren s)).dev =
    .responder (({ r with wel := true, frame := none } : Responder).begin free .erase) :=
  opFrame_chipErase_dev (r := { r with wel := true, frame := none }) ⟨opFrame_wren_dev h, h.2⟩

theorem jedecIdFrame_sameArray (h : s.readyResponder r) : s.SameArray (jedecIdFrame s) :=
  sameArray_of_mem h.1 (jedecIdFrame_ready h).2 rfl (frameRun_jedecId s).1.operands.1

theorem readFrame_sameArray (h : s.readyResponder r) {p : PageIndex} (hp : hasPage s.cfg p) : s.SameArray (readFrame p s) :=
  sameArray_of_mem h.1 (readFrame_page h hp).2 rfl (frameRun_read p s).1.operands.1

theorem ppFrame_opFrame_cfg (p : PageIndex) (op : Byte) (s : State) : (ppFrame p (opFrame op s)).cfg = s.cfg :=
  (frameRun_pp p _).1.operands.1.trans (frameRun_opFrame op s).1.operands.1

/-- The frames of IDENTIFY and its poll, if it has one, leave the array of a ready responder (R120). -/
theorem runIdentify_sameArray (h : s.readyResponder r) : s.SameArray (runIdentify s) := by
  have hframe := jedecIdFrame_sameArray h
  unfold runIdentify
  split
  · exact hframe.trans (sameArray_poll _ ⟨(jedecIdFrame_ready h).2, h.2⟩)
  · exact hframe

theorem runReadPage_sameArray (h : s.readyResponder r) (hp : hasPage s.cfg s.pageLatch) : s.SameArray (runReadPage s) := by
  rw [runReadPage]
  exact (readFrame_sameArray h hp).trans (sameArray_poll _ ⟨(readFrame_page h hp).2, h.2⟩)

/-- The frames of WRITE_PAGE and its first sample leave every byte outside the page: the program is pending, or applied (R62,
R123). -/
theorem runWritePage_outside (h : s.readyResponder r) (hwf : Memory.wf r.mem = true) (hp : hasPage s.cfg s.pageLatch) {a : Nat}
    (ha : a < pageAddress s.pageLatch ∨ pageAddress s.pageLatch + 256 ≤ a) : (runWritePage s).peek a = s.peek a := by
  obtain ⟨free, hstart⟩ := writePage_started h hp
  obtain ⟨f, fr, hdev⟩ := poll_dev .writePage hstart
  have hcfg := ppFrame_opFrame_cfg s.pageLatch opWren s
  have hout : Memory.read (Memory.program r.mem (pageAddress s.pageLatch) (txBytes s)) a = Memory.read r.mem a :=
    Memory.read_program_outside _ _ _ hwf a (by simpa [txBytes] using ha)
  rw [runWritePage, peek_responder hdev, peek_responder h.1, poll_cfg, hcfg]
  dsimp only
  obtain hmem | ⟨-, hmem⟩ := Responder.status_mem s.cfg f
    (({ r with wel := true, frame := none } : Responder).begin free (.program (pageAddress s.pageLatch) (txBytes s)))
  · rw [hmem]
    rfl
  · rw [hmem, ← hout]
    rfl

/-- Acceptance touches nothing on the bus (R16). -/
theorem sameArray_accept (c : Command) (s : State) : s.SameArray (accept c s) := fun _ => rfl

/-- Settles O31: each command is its frames and a poll, which leave the bytes it speaks of. -/
theorem commandsKeepTheArray : Obligations.CommandsKeepTheArray := by
  intro s r hidle h hwf
  have hmem := wf_of_memWf h.1 hwf
  have accepted (c : Command) : (accept c s).readyResponder r := h
  refine ⟨fun t ht => ?_, fun t ht => ?_, fun t hp ht => ?_, fun t hp ht a ha => ?_⟩
  · rw [exec_identify, whenIdle_idle hidle] at ht
    obtain rfl := Host.Outcome.next.inj ht
    exact (sameArray_accept _ s).trans (runIdentify_sameArray (accepted .identify))
  · rw [exec_pollUntilReady, whenIdle_idle hidle] at ht
    obtain rfl := Host.Outcome.next.inj ht
    exact (sameArray_accept _ s).trans (sameArray_pollOnce _ (accepted .pollUntilReady))
  · rw [exec_readPage, whenIdle_idle hidle] at ht
    obtain rfl := Host.Outcome.next.inj ht
    exact (sameArray_accept _ s).trans (runReadPage_sameArray (accepted .readPage) hp)
  · rw [exec_writePage, whenIdle_idle hidle] at ht
    obtain rfl := Host.Outcome.next.inj ht
    exact (runWritePage_outside (accepted .writePage) hmem hp ha).trans (sameArray_accept _ s a)

end Sys2Proof.Machine
end

section
/-! PROOFS. A poll of the responder to its end (R61, R65, R125): one sample at a time, in both framings, then the commands that
end with it. -/

namespace Sys2Proof.Machine

/-! ### An operation in flight -/

/-- The array once the operation in flight, if there is one, is done (R61 (1)). -/
def Responder.finalMem (c : Config) (r : Responder) : Memory := if r.busy then (r.complete c).mem else r.mem

/-- The next `k` status samples read busy, and the one after them does not (R61, R65). -/
def Responder.BusyFor (k : Nat) (r : Responder) : Prop := r.busy = true ∧ r.remaining = .samples k ∨ r.busy = false ∧ k = 0

variable {c : Config} {r : Responder} {k : Nat}

/-- The sample after the busy ones: the effect is in the array and the responder ready (R61 (1)). -/
theorem Responder.BusyFor.last (h : r.BusyFor 0) (f : Byte) : (r.status c f).1 = statusByte c.busyMask f false ∧
    (r.status c f).2.busy = false ∧ (r.status c f).2.mem = r.finalMem c := by
  obtain ⟨hb, hr⟩ | ⟨hb, -⟩ := h
  · rw [Responder.status_last f hb hr, Responder.finalMem, if_pos hb]
    exact ⟨rfl, rfl, rfl⟩
  · rw [Responder.status_ready f hb, Responder.finalMem, if_neg (by simp [hb])]
    exact ⟨rfl, hb, rfl⟩

/-- A busy sample leaves one less to come, and the same operation in flight (R61 (2), (3)). -/
theorem Responder.BusyFor.succ (h : r.BusyFor (k + 1)) (f : Byte) : (r.status c f).1 = statusByte c.busyMask f true ∧
    (r.status c f).2.BusyFor k ∧ (r.status c f).2.finalMem c = r.finalMem c := by
  obtain ⟨hb, hr⟩ | ⟨-, hk⟩ := h
  · rw [Responder.status_busy f hb (by simp [hr])]
    exact ⟨rfl, .inl ⟨hb, by rw [hr]; rfl⟩, rfl⟩
  · cases hk

/-! ### One sample of a poll -/

/-- The next sample of a poll: a status frame of its own (R125), or one more byte of the open frame (log 15). -/
def State.nextSample (s : State) : State :=
  match s.cfg.pollFraming with
  | .perSample => rdsr1Frame s
  | .continuous => storeSample (xSample s)

/-- The rows of one more sample and its test, from the row that P4 goes back to. -/
def sampleRows : PollFraming → Nat
  | .perSample => 5
  | .continuous => 2

/-- The bus events of one more sample. -/
def sampleEvents : PollFraming → Nat
  | .perSample => 4
  | .continuous => 1

/-- The responder has a frame open in which its next transfer is a sample, where the framing needs one (log 15). -/
def inStatusFrame : PollFraming → Option (List Byte) → Prop
  | .perSample, _ => True
  | .continuous, fr => ∃ args, fr = some (opRdsr1 :: args)

variable {s t u : State}

/-- One more sample is a sample of the responder in either framing. -/
theorem nextSample_sample (hd : s.dev = .responder r) (hfr : inStatusFrame s.cfg.pollFraming r.frame) : ∃ f fr,
    s.nextSample.sample = (r.status s.cfg f).1 ∧ s.nextSample.dev = .responder { (r.status s.cfg f).2 with frame := fr } ∧
      inStatusFrame s.cfg.pollFraming fr := by
  unfold State.nextSample
  cases hpf : s.cfg.pollFraming with
  | perSample =>
    obtain ⟨f, hsample, hdev⟩ := rdsr1Frame_sample hd
    exact ⟨f, _, hsample, hdev, trivial⟩
  | continuous =>
    rw [hpf] at hfr
    obtain ⟨args, hargs⟩ := hfr
    obtain ⟨f, hsample, hdev⟩ := storeSample_xSample hd hargs
    exact ⟨f, _, hsample, hdev, _, rfl⟩

/-- The events of a whole frame: `Sel`, one a byte, `Desel`. -/
theorem FrameRun.trace_length {outs : List Byte} (h : FrameRun outs s t) :
    t.trace.length = s.trace.length + (outs.length + 2) := by
  simp [h.trace, frameEvents, transfers, frameIn_length]
  omega

/-- What one more sample leaves alone, and its events. -/
theorem nextSample_keeps (s : State) : s.SameOperands s.nextSample ∧ Keeps True True s s.nextSample ∧
    s.nextSample.trace.length = s.trace.length + sampleEvents s.cfg.pollFraming := by
  unfold State.nextSample
  cases hpf : s.cfg.pollFraming with
  | perSample =>
    obtain ⟨run, -, hrx, hid⟩ := frameRun_rdsr1 s
    exact ⟨run.operands, .of_operands run.operands (fun _ => hrx) (fun _ => hid), run.trace_length⟩
  | continuous =>
    refine ⟨by simp [State.SameOperands], ?_, by simp [sampleEvents]⟩
    constructor <;> simp

/-- From the row that P4 goes back to, the rows of one more sample and its test (R125, log 15). -/
theorem ticks_again (c : Command) (s : State) :
    ticks (sampleRows s.cfg.pollFraming) (goto c (againRow s.cfg.pollFraming) s) = pollTest c s.nextSample := by
  unfold State.nextSample
  cases hpf : s.cfg.pollFraming with
  | perSample =>
    have h := ticks_poll c s
    rw [pollOnce, hpf] at h
    exact h
  | continuous => exact ticks_sample c s hpf

/-! ### A whole poll -/

/-- A poll about to take a sample of the responder: `k` busy samples are to come, no limit cuts them short, and the operation in
flight leaves the array `m`. -/
structure Polling (k : Nat) (m : Memory) (s : State) : Prop where
  mask : s.cfg.busyMask ≠ 0
  limit : ∀ n, s.cfg.pollLimit = some n → s.pollCnt + k < n
  noTimeout : s.errTimeout = false
  device : ∃ r, s.dev = .responder r ∧ r.BusyFor k ∧ r.finalMem s.cfg = m ∧ inStatusFrame s.cfg.pollFraming r.frame

/-- A command has ended, with `n` bus events since `s`, ERR_TIMEOUT = 0, and the ready responder's array `m`. -/
structure PollEnded (m : Memory) (n : Nat) (s t : State) : Prop where
  idle : t.seq = .idle
  free : t.ctrlBusy = false
  noTimeout : t.errTimeout = false
  ready : ∃ r, t.readyResponder r ∧ r.mem = m
  cfg : t.cfg = s.cfg
  keeps : Keeps True True s t
  events : t.trace.length = s.trace.length + n

/-- What was left alone before the poll, and its events, count too. -/
theorem PollEnded.after {m : Memory} {n n' : Nat} (h : PollEnded m n u t) (hcfg : u.cfg = s.cfg) (hk : Keeps True True s u)
    (hev : u.trace.length = s.trace.length + n') : PollEnded m (n' + n) s t :=
  { h with
    cfg := h.cfg.trans hcfg
    keeps := hk.trans h.keeps
    events := by rw [h.events, hev, Nat.add_assoc] }

/-- The bus events that are left after the last sample: the closing `Desel` of a frame still open (log 15). -/
def closeEvents : PollFraming → Nat
  | .perSample => 0
  | .continuous => 1

/-- The way out of a poll of the ready responder: the end of the command, or the closing row first (R125, log 15). -/
theorem PollEnded.leavePoll (c : Command) (herr : s.errTimeout = false) (hready : s.readyResponder r)
    (hfr : inStatusFrame s.cfg.pollFraming r.frame) :
    PollEnded r.mem (closeEvents s.cfg.pollFraming) s (ticks (pollRest s.cfg.pollFraming 0) (leavePoll c s)) := by
  unfold Machine.leavePoll
  cases hpf : s.cfg.pollFraming with
  | perSample => exact ⟨rfl, rfl, herr, ⟨r, hready, rfl⟩, rfl, ⟨rfl, rfl, rfl, fun _ => rfl, fun _ => rfl⟩, rfl⟩
  | continuous =>
    rw [hpf] at hfr
    obtain ⟨args, hargs⟩ := hfr
    obtain ⟨hd, hb⟩ := hready
    have hclosed : (desel s).dev = .responder { r with frame := none } := by
      rw [desel_dev, hd, Device.closed, hargs]
      exact Responder.closeFrame_answered _ (r := { r with frame := none }) (.inl rfl) _
    have hrow : ticks (pollRest .continuous 0) (goto c .p3 s) = endCommand (desel s) := tick_close c s hpf
    dsimp only
    rw [hrow]
    exact ⟨rfl, rfl, herr, ⟨_, ⟨hclosed, hb⟩, rfl⟩, rfl, ⟨rfl, rfl, rfl, fun _ => rfl, fun _ => rfl⟩, rfl⟩

/-- The test P4 has counted the sample, where there is a limit (R158). -/
def State.counted (s : State) : State := { s with pollCnt := s.countedSamples }

@[simp] theorem counted_cfg (s : State) : s.counted.cfg = s.cfg := rfl
@[simp] theorem counted_errTimeout (s : State) : s.counted.errTimeout = s.errTimeout := rfl
@[simp] theorem counted_dev (s : State) : s.counted.dev = s.dev := rfl
@[simp] theorem counted_trace (s : State) : s.counted.trace = s.trace := rfl

theorem counted_pollCnt {n : Nat} (h : s.cfg.pollLimit = some n) : s.counted.pollCnt = s.pollCnt + 1 := by
  simp [State.counted, State.countedSamples, h]

theorem keeps_counted {rx ident : Prop} (s : State) : Keeps rx ident s s.counted := ⟨rfl, rfl, rfl, fun _ => rfl, fun _ => rfl⟩

theorem pollTest_clear (c : Command) (h : s.sampleBusy = false) : pollTest c s = leavePoll c s.counted := by
  obtain ⟨-, ht⟩ | ⟨hb, -⟩ | ⟨hb, -⟩ := pollTest_cases c s
  · exact ht
  all_goals exact absurd (h.symm.trans hb) Bool.false_ne_true

theorem pollTest_again (c : Command) (h : s.sampleBusy = true) (hl : s.cfg.pollLimit ≠ some (s.pollCnt + 1)) :
    pollTest c s = goto c (againRow s.cfg.pollFraming) s.counted := by
  obtain ⟨hb, -⟩ | ⟨-, hlim, -⟩ | ⟨-, -, ht⟩ := pollTest_cases c s
  · exact absurd (hb.symm.trans h) Bool.false_ne_true
  · exact absurd hlim hl
  · exact ht

/-- The last sample of a poll and the rows after its test (R61 (1), R125). -/
theorem Polling.last (c : Command) {m : Memory} (h : Polling 0 m s) :
    PollEnded m (sampleEvents s.cfg.pollFraming + closeEvents s.cfg.pollFraming) s
      (ticks (pollRest s.cfg.pollFraming 0) (pollTest c s.nextSample)) := by
  obtain ⟨hmask, -, herr, r, hd, hk, rfl, hfr⟩ := h
  obtain ⟨⟨hcfg, -, -, -, -, herr', -⟩, hkeeps, hev⟩ := nextSample_keeps s
  obtain ⟨f, fr, hsample, hdev, hfr'⟩ := nextSample_sample hd hfr
  obtain ⟨hbyte, hready, hmem⟩ := hk.last (c := s.cfg) f
  generalize s.nextSample = u at *
  have hclear : u.sampleBusy = false := by
    rw [State.sampleBusy, hcfg, hsample, hbyte, busyBit_statusByte hmask]
  have hleave := PollEnded.leavePoll (s := u.counted) c (herr'.trans herr) ⟨hdev, hready⟩ (by rwa [counted_cfg, hcfg])
  rw [hmem, counted_cfg, hcfg] at hleave
  rw [pollTest_clear c hclear]
  exact hleave.after hcfg (hkeeps.trans (keeps_counted u)) hev

/-- A busy sample of a poll goes on to one that has a busy sample less to come (R61 (3), R125, R158). -/
theorem Polling.sample (c : Command) {m : Memory} (h : Polling (k + 1) m s) : ∃ u,
    pollTest c s.nextSample = goto c (againRow s.cfg.pollFraming) u ∧ Polling k m u ∧ u.cfg = s.cfg ∧ Keeps True True s u ∧
      u.trace.length = s.trace.length + sampleEvents s.cfg.pollFraming := by
  obtain ⟨hmask, hlimit, herr, r, hd, hk, rfl, hfr⟩ := h
  obtain ⟨⟨hcfg, -, -, -, -, herr', hcnt, -⟩, hkeeps, hev⟩ := nextSample_keeps s
  obtain ⟨f, fr, hsample, hdev, hfr'⟩ := nextSample_sample hd hfr
  obtain ⟨hbyte, hbusy, hmem⟩ := hk.succ (c := s.cfg) f
  generalize s.nextSample = u at *
  have hset : u.sampleBusy = true := by
    rw [State.sampleBusy, hcfg, hsample, hbyte, busyBit_statusByte hmask]
  have hlimit' (n : Nat) (hn : u.cfg.pollLimit = some n) : u.pollCnt + (k + 1) < n := hcnt ▸ hlimit n (hcfg ▸ hn)
  have hmore : u.cfg.pollLimit ≠ some (u.pollCnt + 1) := fun hn => by
    have := hlimit' _ hn
    omega
  refine ⟨u.counted, by rw [pollTest_again c hset hmore, hcfg], ?_, hcfg, hkeeps.trans (keeps_counted u), hev⟩
  refine ⟨by rwa [counted_cfg, hcfg], fun n hn => ?_, herr'.trans herr, _, hdev, hbusy, ?_, by rwa [counted_cfg, hcfg]⟩
  · have := hlimit' n hn
    rw [counted_pollCnt (s := u) hn]
    omega
  · rw [counted_cfg, hcfg]
    exact hmem

theorem pollRest_succ (pf : PollFraming) (k : Nat) : pollRest pf (k + 1) = sampleRows pf + pollRest pf k := by
  cases pf <;> simp only [pollRest, sampleRows] <;> omega

/-- A poll of the responder runs to its end at the first clear sample, the operation in flight done (R61, R65, R125). -/
theorem Polling.ended (c : Command) {m : Memory} (h : Polling k m s) :
    PollEnded m (k * sampleEvents s.cfg.pollFraming + (sampleEvents s.cfg.pollFraming + closeEvents s.cfg.pollFraming)) s
      (ticks (pollRest s.cfg.pollFraming k) (pollTest c s.nextSample)) := by
  induction k generalizing s with
  | zero => rw [Nat.zero_mul, Nat.zero_add]; exact h.last c
  | succ k ih =>
    obtain ⟨u, htest, hu, hcfg, hkeeps, hev⟩ := h.sample c
    have hrest := ih hu
    rw [pollRest_succ, ticks_add, htest, ← hcfg, ticks_again, Nat.succ_mul, Nat.add_comm (k * _), Nat.add_assoc]
    exact hrest.after hcfg hkeeps (hcfg ▸ hev)

/-! ### From the first row of the poll -/

/-- Where a poll takes its first sample: before its status frame, or, in a continuous poll, after the opcode (log 15). -/
def State.openPoll (s : State) : State :=
  match s.cfg.pollFraming with
  | .perSample => s
  | .continuous => xOpcode opRdsr1 (sel s)

theorem pollOnce_eq (c : Command) (s : State) : pollOnce c s = pollTest c s.openPoll.nextSample := by
  unfold pollOnce State.openPoll State.nextSample
  cases hpf : s.cfg.pollFraming with
  | perSample => simp only [hpf]
  | continuous => simp only [xOpcode_cfg, sel_cfg, hpf, statusPhase]

/-- The bus events before the first sample's own: `Sel` and the opcode of a frame for the whole poll (log 15). -/
def openEvents : PollFraming → Nat
  | .perSample => 0
  | .continuous => 2

theorem pollEventCount_succ (pf : PollFraming) (k : Nat) :
    pollEventCount pf (k + 1) = openEvents pf + (k * sampleEvents pf + (sampleEvents pf + closeEvents pf)) := by
  cases pf <;> simp only [pollEventCount, openEvents, sampleEvents, closeEvents] <;> omega

theorem openPoll_dev (hd : s.dev = .responder r) : ∃ fr,
    s.openPoll.dev = .responder { r with frame := fr } ∧ inStatusFrame s.cfg.pollFraming fr := by
  unfold State.openPoll
  cases hpf : s.cfg.pollFraming with
  | perSample => exact ⟨r.frame, hd, trivial⟩
  | continuous => exact ⟨_, xOpcode_sel_dev hd opRdsr1, _, rfl⟩

theorem openPoll_keeps (s : State) : s.SameOperands s.openPoll ∧ Keeps True True s s.openPoll ∧
    s.openPoll.trace.length = s.trace.length + openEvents s.cfg.pollFraming := by
  unfold State.openPoll
  cases hpf : s.cfg.pollFraming with
  | perSample => exact ⟨by simp [State.SameOperands], ⟨rfl, rfl, rfl, fun _ => rfl, fun _ => rfl⟩, rfl⟩
  | continuous =>
    refine ⟨by simp [State.SameOperands], ?_, by simp [openEvents]⟩
    constructor <;> simp

/-- A poll that finds an operation in flight for `k` samples, or none, ends after `k + 1` samples with its effect in the array
(R61, R65, R125). -/
theorem pollOnce_ended (c : Command) (hmask : s.cfg.busyMask ≠ 0) (hlimit : ∀ n, s.cfg.pollLimit = some n → s.pollCnt + k < n)
    (herr : s.errTimeout = false) (hd : s.dev = .responder r) (hk : r.BusyFor k) :
    PollEnded (r.finalMem s.cfg) (pollEventCount s.cfg.pollFraming (k + 1)) s
      (ticks (pollRest s.cfg.pollFraming k) (pollOnce c s)) := by
  obtain ⟨⟨hcfg, -, -, -, -, herr', hcnt, -⟩, hkeeps, hev⟩ := openPoll_keeps s
  obtain ⟨fr, hdev, hfr⟩ := openPoll_dev hd
  rw [pollOnce_eq]
  generalize s.openPoll = u at *
  have hpoll : Polling k (r.finalMem s.cfg) u :=
    ⟨by rwa [hcfg], fun n hn => hcnt ▸ hlimit n (hcfg ▸ hn), herr'.trans herr, _, hdev, hk, by rw [hcfg]; rfl, by rwa [hcfg]⟩
  have hend := hpoll.ended c
  rw [hcfg] at hend
  rw [pollEventCount_succ]
  exact hend.after hcfg hkeeps hev

/-- The same from the entry into the poll, where POLL_CNT is 0 (R158, log 14). -/
theorem poll_ended (c : Command) (hmask : s.cfg.busyMask ≠ 0) (hlimit : ∀ n, s.cfg.pollLimit = some n → k < n)
    (herr : s.errTimeout = false) (hd : s.dev = .responder r) (hk : r.BusyFor k) :
    PollEnded (r.finalMem s.cfg) (pollEventCount s.cfg.pollFraming (k + 1)) s
      (ticks (pollRest s.cfg.pollFraming k) (pollOnce c (enterPoll c s))) := by
  have hlimit' (n : Nat) (hn : s.cfg.pollLimit = some n) : 0 + k < n := by
    rw [Nat.zero_add]
    exact hlimit n hn
  have hend := pollOnce_ended (s := enterPoll c s) c hmask hlimit' herr hd hk
  exact { hend with keeps := (keeps_enterPoll c s).trans hend.keeps }

/-! ### Commands that poll to their end -/

/-- What a command's frames before its poll leave alone, and their `n` bus events. -/
structure FramesDone (n : Nat) (s t : State) : Prop where
  cfg : t.cfg = s.cfg
  errTimeout : t.errTimeout = s.errTimeout
  keeps : Keeps True True s t
  events : t.trace.length = s.trace.length + n

theorem FramesDone.of_frame {outs : List Byte} (h : FrameRun outs s t) (k : s.SameResults t) :
    FramesDone (outs.length + 2) s t := by
  obtain ⟨hrx, hid, -⟩ := k
  obtain ⟨hcfg, -, -, -, -, herr, -⟩ := h.operands
  exact ⟨hcfg, herr, .of_operands h.operands (fun _ => hrx) (fun _ => hid), h.trace_length⟩

theorem FramesDone.trans {m n : Nat} (h : FramesDone m s t) (k : FramesDone n t u) : FramesDone (m + n) s u :=
  ⟨k.cfg.trans h.cfg, k.errTimeout.trans h.errTimeout, h.keeps.trans k.keeps, by rw [k.events, h.events, Nat.add_assoc]⟩

theorem framesDone_opFrame (op : Byte) (s : State) : FramesDone 3 s (opFrame op s) :=
  .of_frame (frameRun_opFrame op s).1 (frameRun_opFrame op s).2

theorem framesDone_ppFrame (p : PageIndex) (s : State) : FramesDone 262 s (ppFrame p s) := by
  obtain ⟨run, hres⟩ := frameRun_pp p s
  have hdone := FramesDone.of_frame run hres
  rwa [show ([opPp, hiByte p, loByte p, 0x00] ++ txBytes s).length + 2 = 262 by simp [txBytes]] at hdone

/-- The frames have started an operation for `k` samples: the poll ends with its effect in the array (R61, R65, R125). -/
theorem FramesDone.poll {n : Nat} (c : Command) (h : FramesDone n s t) (hmask : s.cfg.busyMask ≠ 0)
    (hlimit : ∀ n, s.cfg.pollLimit = some n → k < n) (herr : s.errTimeout = false) (hd : t.dev = .responder r)
    (hk : r.BusyFor k) :
    PollEnded (r.finalMem s.cfg) (n + pollEventCount s.cfg.pollFraming (k + 1)) s
      (ticks (pollRest s.cfg.pollFraming k) (pollOnce c (enterPoll c t))) := by
  have hend := poll_ended c (by rwa [h.cfg]) (by rwa [h.cfg]) (h.errTimeout.trans herr) hd hk
  rw [h.cfg] at hend
  exact hend.after h.cfg h.keeps h.events

/-- An operation that has just begun is busy for the samples of the run's next draw (R65). -/
theorem busyFor_begin {ds : List Remaining} (free : Option Nat) (p : Pending) (h : r.draws = .samples k :: ds) :
    (r.begin free p).BusyFor k := .inl ⟨rfl, by rw [Responder.begin, h]; rfl⟩

/-- WRITE_PAGE polled to its end, its program in the array (R62, R123). -/
theorem exec_writePage_ended {ds : List Remaining} (hidle : s.ctrlBusy = false) (h : s.readyResponder r)
    (hp : hasPage s.cfg s.pageIndex) (hdraw : r.draws = .samples k :: ds) (hmask : s.cfg.busyMask ≠ 0)
    (hlimit : ∀ n, s.cfg.pollLimit = some n → k < n) : ∃ t, exec .writePage s = .next t ∧
      PollEnded (Memory.program r.mem (pageAddress s.pageIndex) (txBytes s)) (265 + pollEventCount s.cfg.pollFraming (k + 1))
        (accept .writePage s) (ticks (pollRest s.cfg.pollFraming k) t) := by
  refine ⟨_, exec_writePage s, ?_⟩
  rw [whenIdle_idle hidle, runWritePage]
  obtain ⟨free, hstart⟩ := writePage_started (s := accept .writePage s) h hp
  have hframes := (framesDone_opFrame opWren (accept .writePage s)).trans (framesDone_ppFrame s.pageIndex _)
  exact hframes.poll .writePage hmask hlimit rfl hstart (busyFor_begin free _ hdraw)

/-- ERASE_CHIP polled to its end, the array erased (R64, R121). -/
theorem exec_eraseChip_ended {ds : List Remaining} (hidle : s.ctrlBusy = false) (h : s.readyResponder r)
    (hdraw : r.draws = .samples k :: ds) (hmask : s.cfg.busyMask ≠ 0) (hlimit : ∀ n, s.cfg.pollLimit = some n → k < n) :
    ∃ t, exec .eraseChip s = .next t ∧
      PollEnded (Memory.filled s.cfg.capacity s.cfg.erasedByte) (6 + pollEventCount s.cfg.pollFraming (k + 1))
        (accept .eraseChip s) (ticks (pollRest s.cfg.pollFraming k) t) := by
  refine ⟨_, exec_eraseChip s, ?_⟩
  rw [whenIdle_idle hidle, runEraseChip]
  obtain ⟨free, hstart⟩ := eraseChip_started (s := accept .eraseChip s) h
  have hframes := (framesDone_opFrame opWren (accept .eraseChip s)).trans (framesDone_opFrame opChipErase _)
  exact hframes.poll .eraseChip hmask hlimit rfl hstart (busyFor_begin free _ hdraw)

/-- READ_PAGE of the ready responder polled to its end, which is its first sample: the page is in RXBUF (R60, R122). -/
theorem exec_readPage_ended (hidle : s.ctrlBusy = false) (h : s.readyResponder r) (hp : hasPage s.cfg s.pageIndex)
    (hmask : s.cfg.busyMask ≠ 0) (hlimit : ∀ n, s.cfg.pollLimit = some n → 0 < n) : ∃ t u,
      exec .readPage s = .next t ∧ u = ticks (pollRest s.cfg.pollFraming 0) t ∧ u.seq = .idle ∧ u.ctrlBusy = false ∧
      ∀ i : Fin 256, u.rxbuf[i] = Memory.read r.mem (pageAddress s.pageIndex + i.val) := by
  refine ⟨_, _, exec_readPage s, rfl, ?_⟩
  rw [whenIdle_idle hidle, runReadPage, accept_pageLatch]
  obtain ⟨hrx, hdev⟩ := readFrame_page (s := accept .readPage s) h hp
  obtain ⟨⟨hcfg, -, -, -, -, herr, -⟩, -⟩ := framesKeepRegisters _ _ _ rfl (exec_read s.pageIndex (accept .readPage s))
  generalize readFrame s.pageIndex (accept .readPage s) = u at *
  rw [accept_cfg] at hcfg
  have hend := poll_ended (k := 0) .readPage (by rwa [hcfg]) (by rwa [hcfg]) herr hdev (.inr ⟨h.2, rfl⟩)
  rw [hcfg] at hend
  exact ⟨hend.idle, hend.free, fun i => by rw [hend.keeps.rxbuf trivial]; exact hrx i⟩

/-- A byte of the array in which a command has ended. -/
theorem PollEnded.peek {m : Memory} {n : Nat} (h : PollEnded m n s t) (a : Nat) :
    t.peek a = if a < s.cfg.capacity then some (Memory.read m a) else none := by
  obtain ⟨r, ⟨hd, -⟩, rfl⟩ := h.ready
  rw [peek_responder hd, h.cfg]

/-- A byte of the page after its program (R62). -/
theorem read_programmed_page {m : Memory} (hm : Memory.wf m = true) (a : Nat) (s : State) (i : Fin 256) :
    Memory.read (Memory.program m a (txBytes s)) (a + i.val) = Memory.read m (a + i.val) &&& s.txbuf[i] := by
  rw [Memory.read_program_inside m a _ hm i.val (by simp [txBytes])]
  simp [txBytes]

/-- Settles O32: WRITE_PAGE and ERASE_CHIP polled to their ends, and READ_PAGE from the state WRITE_PAGE leaves. -/
theorem writtenPageReadsBack : Obligations.WrittenPageReadsBack := by
  intro s r k ds hidle h hdraw hmask hlimit hwf
  have hm := wf_of_memWf h.1 hwf
  constructor
  · intro hp
    obtain ⟨t, ht, hend⟩ := exec_writePage_ended hidle h hp hdraw hmask hlimit
    generalize hu : ticks (pollRest s.cfg.pollFraming k) t = u at hend
    obtain ⟨r', hready, hmem⟩ := hend.ready
    have hcfg : u.cfg = s.cfg := hend.cfg
    have hpage : u.pageIndex = s.pageIndex := hend.keeps.pageIndex
    obtain ⟨v, w, hv, hw, hwidle, hwfree, hrx⟩ := exec_readPage_ended hend.free hready (by rwa [hcfg, hpage]) (by rwa [hcfg])
      fun n hn => (Nat.zero_le k).trans_lt (hlimit n (hcfg ▸ hn))
    rw [hpage, hmem] at hrx
    refine ⟨t, u, v, w, ht, hu.symm, hend.idle, hend.free, hend.noTimeout, hend.events.trans (Nat.add_assoc _ _ _).symm,
      fun i => ?_, fun a ha => ?_, hv, hcfg ▸ hw, hwidle, hwfree, fun i => (hrx i).trans (read_programmed_page hm _ s i)⟩
    · have hfit := hasPage_fits hp
      rw [hend.peek, accept_cfg, if_pos (by omega), read_programmed_page hm]
    · rw [hend.peek, accept_cfg, peek_responder h.1, Memory.read_program_outside _ _ _ hm a (by simpa [txBytes] using ha)]
  · obtain ⟨t, ht, hend⟩ := exec_eraseChip_ended hidle h hdraw hmask hlimit
    refine ⟨t, _, ht, rfl, hend.idle, hend.free, hend.noTimeout, hend.events.trans (Nat.add_assoc _ _ _).symm, fun a ha => ?_⟩
    rw [hend.peek, accept_cfg, if_pos ha, Memory.read_filled _ _ _ ha]

end Sys2Proof.Machine
end

section
/-! PROOFS. The words of the two levels: the address bytes of a page, and what decoding an encoded instruction gives (R75 to R79, R85,
R92). -/

namespace Sys2Proof.Machine

/-! ### Address bytes -/

/-- A2 is the high byte of the page (R77). -/
theorem hiByte_eq_extract (p : PageIndex) : hiByte p = p.extractLsb' 8 8 :=
  BitVec.extractLsb'_append_eq_left.symm.trans (congrArg (BitVec.extractLsb' 8 8) (pageOf_bytes p))

/-- A1 is the low byte of the page (R77). -/
theorem loByte_eq_extract (p : PageIndex) : loByte p = p.extractLsb' 0 8 :=
  BitVec.extractLsb'_append_eq_right.symm.trans (congrArg (BitVec.extractLsb' 0 8) (pageOf_bytes p))

/-- Two address bytes are the bytes of exactly one page (R77). -/
theorem addressBytes_iff (a2 a1 : Byte) (q : PageIndex) : hiByte q = a2 ∧ loByte q = a1 ↔ q = pageOf a2 a1 := by
  constructor
  · rintro ⟨rfl, rfl⟩
    exact (pageOf_bytes q).symm
  · rintro rfl
    rw [hiByte_eq_extract, loByte_eq_extract]
    exact ⟨BitVec.extractLsb'_append_eq_left, BitVec.extractLsb'_append_eq_right⟩

/-- The address A2 ++ A1 ++ A0 is zext_24(p) * 256 (R77, R130). -/
theorem addressOf_bytes (p : PageIndex) : addressOf (hiByte p) (loByte p) 0x00 = p.setWidth 24 * 256 := by
  apply BitVec.eq_of_toNat_eq
  rw [addressOf_toNat, pageAddress, BitVec.toNat_mul, BitVec.toNat_setWidth]
  have hp := p.isLt
  simp only [BitVec.reduceToNat]
  omega

/-! ### Headers -/

/-- The header of a READ decodes to the page its address bytes name (R77). -/
theorem decodeFrame_read (a2 a1 : Byte) : decodeFrame [opRead, a2, a1, 0x00] = .ok (.read (pageOf a2 a1)) := rfl

/-- The header of a PP decodes to the page its address bytes name (R77). -/
theorem decodeFrame_pp (a2 a1 : Byte) : decodeFrame [opPp, a2, a1, 0x00] = .ok (.pp (pageOf a2 a1)) := rfl

/-- A header of a READ or a PP whose third address byte is not 0x00 decodes to nothing (R77). -/
theorem decodeFrame_misaligned {op a0 : Byte} (hop : op = opRead ∨ op = opPp) (a2 a1 : Byte) (h : a0 ≠ 0x00) :
    decodeFrame [op, a2, a1, a0] = .error (.misalignedAddress op) := by
  obtain rfl | rfl := hop <;> exact if_pos h

/-- Settles O1: the words of an instruction without an operand are one byte, which its level's decoder knows; those of a READ or a PP carry
the bytes of its page, which name it (`pageOf_bytes`). -/
theorem encodedInstructionsDecode : Obligations.EncodedInstructionsDecode := by
  intro i
  cases i with
  | jedecId | wren | wrdi | chipErase | rdsr1 => rfl
  | identify | eraseChip | readPage | writePage | pollUntilReady => rfl
  | read p => exact (decodeFrame_read _ _).trans (by rw [pageOf_bytes])
  | pp p => exact (decodeFrame_pp _ _).trans (by rw [pageOf_bytes])

/-- Settles O2: the byte formulas of R77, and that two address bytes name one page (`addressBytes_iff`). -/
theorem pageAddressEncoding : Obligations.PageAddressEncoding := by
  refine ⟨fun p => ?_, fun a2 a1 => ⟨pageOf a2 a1, fun q => ?_⟩, fun a2 a1 a0 i h => ?_⟩
  · rw [← hiByte_eq_extract, ← loByte_eq_extract]
    exact ⟨rfl, rfl, rfl, rfl, addressOf_bytes p⟩
  · have henc (op : Byte) : [op, hiByte q, loByte q, 0x00] = [op, a2, a1, 0x00] ↔ q = pageOf a2 a1 := by
      simpa using addressBytes_iff a2 a1 q
    refine ⟨?_, henc opRead, ?_, henc opPp⟩
    · rw [decodeFrame_read, Except.ok.injEq, Instr.read.injEq, eq_comm]
    · rw [decodeFrame_pp, Except.ok.injEq, Instr.pp.injEq, eq_comm]
  · rw [decodeFrame_misaligned (.inl rfl) a2 a1 h, decodeFrame_misaligned (.inr rfl) a2 a1 h]
    exact ⟨nofun, nofun⟩

/-- Settles O3: twelve fixed words, run through the decoders. -/
theorem tableWordsDecode : Obligations.TableWordsDecode :=
  ⟨rfl, rfl, rfl, rfl, rfl, rfl, rfl, rfl, rfl, rfl, rfl, rfl⟩

/-- Settles O4: the short frames are written out byte by byte; a READ and a PP are four header bytes and the 256 bytes of a page. -/
theorem frameLengthByOpcode : Obligations.FrameLengthByOpcode := by
  refine ⟨fun s i hi => ?_, rfl, rfl, rfl, rfl, rfl, rfl, rfl⟩
  cases i with
  | identify | eraseChip | readPage | writePage | pollUntilReady => cases hi
  | jedecId | wren | wrdi | chipErase | rdsr1 => rfl
  | read p =>
    rw [mosiBytes, List.length_append, List.length_replicate]
    rfl
  | pp p =>
    rw [mosiBytes, List.length_append, txBytes, Vector.length_toList]
    rfl

end Sys2Proof.Machine
end

section
/-! PROOFS. What every wire frame puts on the bus, and what a step makes of a command code (R70, R87, R90). -/

namespace Sys2Proof.Machine

/-- Every wire frame is its MOSI bytes between `Sel` and `Desel` (R70, R110 to R116). -/
theorem frameRun_exec {i : Instr} {s t : State} (hi : i.isCommand = false) (ht : exec i s = .next t) :
    FrameRun (mosiBytes s i) s t := by
  cases i with
  | identify | eraseChip | readPage | writePage | pollUntilReady => cases hi
  | jedecId => exact Host.Outcome.next.inj ht ▸ (frameRun_jedecId s).1
  | wren => exact Host.Outcome.next.inj ht ▸ (frameRun_opFrame opWren s).1
  | wrdi => exact Host.Outcome.next.inj ht ▸ (frameRun_opFrame opWrdi s).1
  | chipErase => exact Host.Outcome.next.inj ht ▸ (frameRun_opFrame opChipErase s).1
  | rdsr1 => exact Host.Outcome.next.inj ht ▸ (frameRun_rdsr1 s).1
  | read p => exact Host.Outcome.next.inj ht ▸ (frameRun_read p s).1
  | pp p => exact Host.Outcome.next.inj ht ▸ (frameRun_pp p s).1

/-- A wire frame completes, with the clock low (R12, R107). -/
theorem exec_frame_completes {i : Instr} (hi : i.isCommand = false) (s : State) : ∃ t, exec i s = .next t ∧ t.sck = false := by
  cases i with
  | identify | eraseChip | readPage | writePage | pollUntilReady => cases hi
  | jedecId => exact ⟨_, exec_jedecId s, by simp [jedecIdFrame]⟩
  | wren => exact ⟨_, exec_wren s, by simp [opFrame]⟩
  | wrdi => exact ⟨_, exec_wrdi s, by simp [opFrame]⟩
  | chipErase => exact ⟨_, exec_chipErase s, by simp [opFrame]⟩
  | rdsr1 => exact ⟨_, exec_rdsr1 s, by simp [rdsr1Frame, statusPhase]⟩
  | read p => exact ⟨_, exec_read p s, by rw [readFrame, desel_sck, readPhase_sck _ _ (by simp [addressPhase])]⟩
  | pp p => exact ⟨_, exec_pp p s, by rw [ppFrame, desel_sck, programPhase_sck _ _ (by simp [addressPhase])]⟩

/-- Settles O6: every frame completes, and is a run of its MOSI bytes (`frameRun_exec`). -/
theorem framesSendTheirBytes : Obligations.FramesSendTheirBytes := by
  intro s i hi
  obtain ⟨t, ht, hsck⟩ := exec_frame_completes hi s
  have run := frameRun_exec hi ht
  exact ⟨t, ht, run.trace, run.dev, run.csN, hsck⟩

/-! ### Command codes -/

/-- A code outside the five of R85 is no command's (R87). -/
theorem ne_code_of_reserved {code : Byte} (h : code ∉ [0x02#8, 0x03#8, 0x05#8, 0x9F#8, 0xC7#8]) (c : Command) : code ≠ c.code := by
  rintro rfl
  cases c with
  | identify | eraseChip | readPage | writePage | pollUntilReady => exact h (by decide)

/-- Settles O42: a write of a code that is no command's changes nothing (`startCommand_reserved`). -/
theorem reservedCommandsAreIgnored : Obligations.ReservedCommandsAreIgnored := by
  refine ⟨by decide +kernel, fun code s rest hcode hb ha => ?_⟩
  obtain ⟨-, -, hstep, -⟩ := hostAccessWhileBusy
  have hwrite : hostWrite 0x000 (code.setWidth 16) (withAgenda rest s) = withAgenda rest s :=
    (hostWrite_cmd (s := withAgenda rest s) code hb).trans (startCommand_reserved (ne_code_of_reserved hcode) _)
  exact (hstep _ _ rest s ha).trans (congrArg Host.Outcome.next hwrite)

/-- Settles O48: `fetch` answers the instruction the code decodes to, and nothing for a code of no command. -/
theorem stepRunsTheCalledCommand : Obligations.StepRunsTheCalledCommand := by
  intro s code rest ha
  have hfetch : fetch s = fetchCall code (withAgenda (.wait :: rest) s) := by rw [fetch, ha]
  refine ⟨fun i hd => ?_, fun hcode => step_done ?_⟩
  · rw [step, hfetch, fetchCall, hd]
    rfl
  · rw [hfetch, fetchCall]
    cases hd : decodeCommand code with
    | error r => rfl
    | ok i =>
      obtain ⟨c, -, hc⟩ := decodeCommand_ok hd
      exact absurd hc (ne_code_of_reserved hcode c)

end Sys2Proof.Machine
end

section
/-! PROOFS. The opcodes on the bus (R88): every frame, row, command and step without a frame of the host's own opens its frames with one of
the six. -/

namespace Sys2Proof.Machine

/-! ### Traces -/

variable {tr : List BusEvent}

theorem opcodesEmitted_desel : opcodesEmitted (.desel :: tr) = opcodesEmitted tr := rfl

/-- A byte that does not follow a `Sel` is no opcode. -/
theorem opcodesEmitted_data (out inp : Byte) (h : tr.head? ≠ some .sel) : opcodesEmitted (.x out inp :: tr) = opcodesEmitted tr := by
  cases tr with
  | nil => rfl
  | cons e tr =>
    cases e with
    | sel => exact absurd rfl h
    | x | desel | cut => rfl

/-- An emitted opcode may follow anything. -/
theorem opcodesEmitted_opcode {out : Byte} (inp : Byte) (hout : out ∈ emittedOpcodes) (h : opcodesEmitted tr = true) :
    opcodesEmitted (.x out inp :: tr) = true := by
  by_cases htr : tr.head? = some .sel
  · obtain ⟨tr, rfl⟩ := List.head?_eq_some_iff.mp htr
    rw [opcodesEmitted, List.contains_iff_mem.mpr hout, Bool.true_and]
    exact h
  · rwa [opcodesEmitted_data out inp htr]

/-- The transfers of a frame after its opcode add no opcode. -/
theorem opcodesEmitted_transfers (outs ins : List Byte) (h : tr.head? ≠ some .sel) :
    opcodesEmitted ((transfers outs ins).reverse ++ tr) = opcodesEmitted tr := by
  induction outs generalizing ins tr with
  | nil => rfl
  | cons out outs ih =>
    cases ins with
    | nil => rfl
    | cons inp ins =>
      have hsplit : (transfers (out :: outs) (inp :: ins)).reverse ++ tr = (transfers outs ins).reverse ++ (.x out inp :: tr) := by
        simp [transfers]
      rw [hsplit, ih ins (by simp), opcodesEmitted_data out inp h]

/-- A frame that opens with an emitted opcode keeps the claim. -/
theorem opcodesEmitted_frame {op : Byte} (hop : op ∈ emittedOpcodes) (outs ins : List Byte) (h : opcodesEmitted tr = true) :
    opcodesEmitted ((frameEvents (op :: outs) ins).reverse ++ tr) = true := by
  cases ins with
  | nil => exact h
  | cons inp ins =>
    have hsplit : (frameEvents (op :: outs) (inp :: ins)).reverse ++ tr =
        .desel :: ((transfers outs ins).reverse ++ (.x op inp :: .sel :: tr)) := by
      simp [frameEvents, transfers]
    rw [hsplit, opcodesEmitted_desel, opcodesEmitted_transfers outs ins (by simp)]
    exact opcodesEmitted_opcode inp hop h

/-- Where a frame is open with a byte in it, the trace does not end with a `Sel`. -/
theorem head_ne_sel (h : (framing tr).openFrom 1) : tr.head? ≠ some .sel := by
  intro hsel
  obtain ⟨tr, rfl⟩ := List.head?_eq_some_iff.mp hsel
  rw [framing] at h
  cases hf : framing tr with
  | closed =>
    rw [hf] at h
    exact Nat.not_succ_le_zero 0 h
  | opened n | broken =>
    rw [hf] at h
    exact h

/-! ### Frames, rows and commands -/

/-- What any part of the machine's work leaves of the claim: the host's coming moves, and the trace with emitted opcodes only. -/
structure Emits (s t : State) : Prop where
  agenda : t.agenda = s.agenda
  opcodes : opcodesEmitted s.trace = true → opcodesEmitted t.trace = true

theorem Emits.trans {s t u : State} (h : Emits s t) (k : Emits t u) : Emits s u :=
  ⟨k.agenda.trans h.agenda, k.opcodes ∘ h.opcodes⟩

theorem Emits.refl (s : State) : Emits s s := ⟨rfl, id⟩

/-- Work off the bus adds nothing to the trace. -/
theorem Emits.quiet {s t : State} (hagenda : t.agenda = s.agenda) (htrace : t.trace = s.trace) : Emits s t :=
  ⟨hagenda, fun h => htrace ▸ h⟩

variable {s : State} {c : Command} {r : Row} {f : Framing}

theorem emits_frame {outs : List Byte} {t : State} {op : Byte} (hop : op ∈ emittedOpcodes) (h : FrameRun (op :: outs) s t) :
    Emits s t := by
  obtain ⟨-, -, -, -, -, -, -, -, hagenda, -⟩ := h.operands
  exact ⟨hagenda, fun k => h.trace ▸ opcodesEmitted_frame hop outs _ k⟩

theorem emits_opFrame {op : Byte} (hop : op ∈ emittedOpcodes) : Emits s (opFrame op s) :=
  emits_frame hop (frameRun_opFrame op s).1

theorem emits_jedecIdFrame : Emits s (jedecIdFrame s) := emits_frame (by decide) (frameRun_jedecId s).1

theorem emits_readFrame (p : PageIndex) : Emits s (readFrame p s) := emits_frame (by decide) (frameRun_read p s).1

theorem emits_ppFrame (p : PageIndex) : Emits s (ppFrame p s) := emits_frame (by decide) (frameRun_pp p s).1

/-- A status frame, also one that a continuous poll leaves open (R114, log 15). -/
theorem emits_statusPhase : Emits s (statusPhase s) := by
  refine ⟨by simp [statusPhase], fun h => ?_⟩
  simp only [statusPhase, storeSample_trace, xSample_trace, xOpcode_trace, sel_trace]
  rw [opcodesEmitted_data _ _ (by simp)]
  exact opcodesEmitted_opcode _ (by decide) h

theorem emits_desel : Emits s (desel s) := ⟨rfl, id⟩

theorem emits_enterPoll : Emits s (enterPoll c s) := .quiet rfl rfl

theorem emits_accept : Emits s (accept c s) := .quiet rfl rfl

theorem emits_pollTest : Emits s (pollTest c s) := by
  rw [pollTest_eq]
  exact .quiet rfl rfl

theorem emits_pollOnce : Emits s (pollOnce c s) := by
  obtain ⟨u, ⟨-, rfl⟩ | ⟨-, rfl⟩, hpoll, -⟩ := pollOnce_bus c s
  · exact hpoll ▸ (emits_statusPhase.trans emits_desel).trans emits_pollTest
  · exact hpoll ▸ emits_statusPhase.trans emits_pollTest

/-- Frames, then the first pass of a poll. -/
theorem Emits.poll {u : State} (h : Emits s u) : Emits s (pollOnce c (enterPoll c u)) :=
  (h.trans emits_enterPoll).trans emits_pollOnce

/-- The frames of each command (R120 to R124). -/
theorem emits_run : Emits s (c.run s) := by
  cases c with
  | identify =>
    simp only [Command.run, runIdentify]
    split
    · exact emits_jedecIdFrame.poll
    · exact emits_jedecIdFrame.trans (.quiet rfl rfl)
  | eraseChip => exact ((emits_opFrame (by decide)).trans (emits_opFrame (by decide))).poll
  | readPage =>
    simp only [Command.run, runReadPage]
    exact (emits_readFrame _).poll
  | writePage =>
    simp only [Command.run, runWritePage]
    exact ((emits_opFrame (by decide)).trans (emits_ppFrame _)).poll
  | pollUntilReady => exact emits_pollOnce

theorem emits_whenIdle : Emits s (whenIdle c c.run s) := by
  cases hb : s.ctrlBusy with
  | true =>
    rw [whenIdle_busy hb]
    exact .refl s
  | false =>
    rw [whenIdle_idle hb]
    exact emits_accept.trans emits_run

theorem tickRow_agenda (c : Command) (r : Row) (s : State) : (tickRow c r s).agenda = s.agenda := by
  cases r with
  | p4 => exact emits_pollTest.agenda
  | i5 =>
    rw [tickRow_i5]
    split <;> rfl
  | _ => simp [tickRow]

/-- A row that stands where the invariant says sends an emitted opcode, or a byte of a frame that has its opcode (R120 to R125). -/
theorem RowInv.emits (h : RowInv c r f s) : Emits s (Machine.tickRow c r s) := by
  refine ⟨tickRow_agenda c r s, fun k => ?_⟩
  have data (out : Byte) (hopen : f.openFrom 1) : opcodesEmitted (rowEvents.sent s out :: s.trace) = true :=
    (opcodesEmitted_data _ _ (head_ne_sel (h.bus.framed ▸ hopen))).trans k
  have hrow := h.row
  rw [tickRow_trace]
  cases r with
  | p4 | i0 | e0 | e3 | rd0 | w0 | w3 | p0 | i5 | e2 | e5 | rd6 | w2 | w9 | p3 => exact k
  | i1 | e1 | e4 | rd1 | w1 | w4 | p1 => exact opcodesEmitted_opcode _ (by decide) k
  | i2 | i3 | i4 | rd2 | rd3 | rd4 | rd5 | w5 | w6 | w7 | w8 =>
    obtain rfl : f = .opened _ := hrow
    exact data _ (Nat.succ_le_succ (Nat.zero_le _))
  | p2 =>
    refine data _ ?_
    cases hpf : s.cfg.pollFraming with
    | perSample =>
      rw [hpf] at hrow
      obtain rfl : f = .opened 1 := hrow
      exact le_rfl
    | continuous =>
      rw [hpf] at hrow
      exact hrow

theorem emits_tick (h : s.Inv) : Emits s (tick s) := by
  obtain hs | ⟨c, r, hs⟩ := seq_cases s
  · rw [tick_idle hs]
    exact .refl s
  · obtain ⟨f, hrow⟩ := inv_at hs h
    exact tick_at hs ▸ hrow.emits

theorem emits_hostWrite (num : Nat) (v : BitVec 16) : Emits s (hostWrite num v s) := by
  cases hostWrite_cases num v s with
  | nothing ht | command c i _ _ _ ht | pageIndex _ ht | txbuf k _ ht =>
    rw [ht]
    exact .quiet rfl rfl

theorem emits_reset : Emits s (resetController s) := by
  refine ⟨rfl, fun h => ?_⟩
  rw [resetController_trace]
  split <;> exact h

/-! ### Steps -/

theorem noBench_congr {t : State} (h : t.agenda = s.agenda) : t.noBench = s.noBench := by
  rw [State.noBench, State.noBench, h]

/-- The host's moves after the next one. -/
theorem noBench_rest {m : HostMove} {rest : List HostMove} (ha : s.agenda = m :: rest) (h : s.noBench = true) :
    (withAgenda rest s).noBench = true := by
  rw [State.noBench, ha, List.all_cons, Bool.and_eq_true] at h
  exact h.2

theorem noBench_wait {rest : List HostMove} (h : (withAgenda rest s).noBench = true) :
    (withAgenda (.wait :: rest) s).noBench = true := h

theorem not_noBench_frame {header : List Byte} {rest : List HostMove} (ha : s.agenda = .frame header :: rest) :
    s.noBench = false := by
  rw [State.noBench, ha]
  rfl

/-- A step is work of the machine on the state with the moves that are left. -/
theorem step_emits {t : State} (hinv : s.Inv) (hbench : s.noBench = true) (h : step s = .next t) :
    ∃ rest, (withAgenda rest s).noBench = true ∧ Emits (withAgenda rest s) t := by
  cases step_cases h with
  | free _ ht | waiting _ _ _ ht => exact ⟨s.agenda, hbench, ht ▸ emits_tick hinv⟩
  | run rest ha ht => exact ⟨rest, noBench_rest ha hbench, ht ▸ emits_tick (inv_withAgenda rest hinv)⟩
  | waited rest ha _ ht | read _ rest ha ht => exact ⟨rest, noBench_rest ha hbench, ht ▸ .quiet rfl rfl⟩
  | reset rest ha ht => exact ⟨rest, noBench_rest ha hbench, ht ▸ emits_reset⟩
  | write num v rest ha ht => exact ⟨rest, noBench_rest ha hbench, ht ▸ emits_hostWrite num v⟩
  | reserved code rest ha _ ht => exact ⟨_, noBench_wait (noBench_rest ha hbench), ht ▸ .quiet rfl rfl⟩
  | call code i rest ha hd ht =>
    obtain ⟨c, hc, -⟩ := decodeCommand_ok hd
    rw [exec_command hc, Host.Outcome.next.injEq] at ht
    exact ⟨_, noBench_wait (noBench_rest ha hbench), ht ▸ emits_whenIdle⟩
  | frame header i rest ha | noFrame header rest ha => exact absurd hbench (by simp [not_noBench_frame ha])

/-- Settles O58: a step is a row, a command or nothing on the bus (`step_emits`), and 0x04 is not among the six. -/
theorem onlySixOpcodesOnTheBus : Obligations.OnlySixOpcodesOnTheBus := by
  refine ⟨fun s t hinv hbench hops h => ?_, by decide⟩
  obtain ⟨rest, hrest, hemits⟩ := step_emits hinv hbench h
  exact ⟨(noBench_congr hemits.agenda).trans hrest, hemits.opcodes hops⟩

end Sys2Proof.Machine
end

section
/-! PROOFS. The pins through a byte transfer, a frame on a supplied bus, and that no step is without a next state (R102, R103, R107). -/

namespace Sys2Proof.Machine

/-! ### The pins -/

@[simp] theorem bitCycle_sho (inp : Byte) (w : Shifter) (j : Nat) : (bitCycle inp w j).sho = w.sho := rfl
@[simp] theorem bitCycle_sck (inp : Byte) (w : Shifter) (j : Nat) : (bitCycle inp w j).sck = false := rfl

/-- A bit cycle is low, high, low with the bit of SHO on MOSI; it ends as it began, with SCK = 0 and SHO whole (R12, R102). -/
theorem bitWave_eq (inp : Byte) (js : List Nat) (w : Shifter) (hlow : w.sck = false) :
    bitWave inp js w =
      js.flatMap fun j => [(false, w.sho.getLsbD j), (true, w.sho.getLsbD j), (false, w.sho.getLsbD j)] := by
  induction js generalizing w with
  | nil => rfl
  | cons j js ih =>
    have drive : ((driveBit j w).sck, (driveBit j w).mosi) = (false, w.sho.getLsbD j) := Prod.ext hlow rfl
    rw [bitWave, drive, ih _ (bitCycle_sck inp w j), bitCycle_sho, List.flatMap_cons]
    rfl

/-- Settles O5: the wave bit by bit (`bitWave_eq`), and the registers at the end of a transfer (`shiftByte_eq`, `shiftBits_eq`). -/
theorem byteTransferOnThePins : Obligations.ByteTransferOnThePins := by
  intro out inp s hlow
  refine ⟨bitWave_eq inp bitOrder (s.loaded out) hlow, ?_⟩
  simp only [shiftByte_eq, shiftBits_eq, and_self, implies_true]

/-! ### A supplied bus -/

/-- A frame on a supplied bus receives the supply in order (R103). -/
theorem frameIn_script {s : State} {outs ins rest : List Byte} (hlen : ins.length = outs.length)
    (hd : s.dev = .script (ins ++ rest)) : s.frameIn outs = ins := by
  rw [State.frameIn, hd, Device.opened, Device.exchange_script _ _ _ _ _ hlen]

/-- A frame on a supplied bus leaves the rest of the supply (R103). -/
theorem frameDev_script {s : State} {outs ins rest : List Byte} (hlen : ins.length = outs.length)
    (hd : s.dev = .script (ins ++ rest)) : s.frameDev outs = .script rest := by
  rw [State.frameDev, hd, Device.opened, Device.exchange_script _ _ _ _ _ hlen, Device.closed]

/-- Settles O7: every frame completes as a run of its MOSI bytes (`frameRun_exec`), to which a supplied bus answers its supply. -/
theorem suppliedAnswersAreReceived : Obligations.SuppliedAnswersAreReceived := by
  intro s i ins rest hi hlen hd
  obtain ⟨t, ht, -⟩ := exec_frame_completes hi s
  have run := frameRun_exec hi ht
  exact ⟨t, ht, frameIn_script hlen hd ▸ run.trace, run.dev.trans (frameDev_script hlen hd)⟩

/-! ### Steps -/

/-- Every instruction, frame or command, answers a next state (R107, R150). -/
theorem exec_next (i : Instr) (s : State) : ∃ t, exec i s = .next t := by
  cases hi : i.isCommand with
  | false =>
    obtain ⟨t, ht, -⟩ := exec_frame_completes hi s
    exact ⟨t, ht⟩
  | true =>
    obtain ⟨c, hc⟩ := commandOf_of_isCommand hi
    exact ⟨_, exec_command hc s⟩

/-- Settles O47: a step runs an instruction, which answers a next state (`exec_next`), or is already done. -/
theorem everyStepHasANextState : Obligations.EveryStepHasANextState := by
  intro s
  cases hf : fetch s with
  | run i u =>
    rw [step, hf]
    exact exec_next i u
  | done t => exact ⟨t, step_done hf⟩

end Sys2Proof.Machine
end

section
/-! PROOFS. What each wire frame puts on the bus and stores, event by event (R110 to R116), and the step of a frame the host drives
itself. -/

namespace Sys2Proof.Machine

variable {s : State}

/-! ### The bytes received -/

/-- As many bytes as a vector holds are a vector's. -/
theorem exists_vector_toList {n : Nat} {l : List Byte} (h : l.length = n) : ∃ v : Vector Byte n, v.toList = l :=
  ⟨⟨l.toArray, h⟩, rfl⟩

/-- The trace of a frame that receives the bytes `ins` (R70). -/
theorem FrameRun.trace_received {outs ins : List Byte} {t : State} (run : FrameRun outs s t) (hin : s.frameIn outs = ins) :
    t.trace = (frameEvents outs ins).reverse ++ s.trace := hin ▸ run.trace

/-- A frame receives as many bytes as its opcode gives it (R76, R103). -/
theorem frameIn_mosiBytes_length {i : Instr} (hi : i.isCommand = false) (s : State) :
    (s.frameIn (mosiBytes s i)).length = frameLength i.opcode := by
  rw [frameIn_length, frameLengthByOpcode.1 s i hi]

/-- The byte received with the opcode, then the three bytes of ID (R110). -/
theorem frameIn_jedecId (s : State) : ∃ b m ty cap, s.frameIn (mosiBytes s .jedecId) = [b, m, ty, cap] ∧
    (jedecIdFrame s).id = #v[m, ty, cap] := by
  obtain ⟨-, htail, -⟩ := frameRun_jedecId s
  obtain ⟨b, m, ty, cap, hin⟩ := List.length_eq_four.mp (frameIn_mosiBytes_length (i := .jedecId) rfl s)
  exact ⟨b, m, ty, cap, hin, Vector.toList_inj.mp (htail.symm.trans (congrArg List.tail hin))⟩

/-- After the four bytes received with the header, the bytes of RXBUF in order (R115). -/
theorem frameIn_read (p : PageIndex) (s : State) : ∃ hdr : Vector Byte 4,
    s.frameIn (mosiBytes s (.read p)) = hdr.toList ++ (readFrame p s).rxbuf.toList := by
  obtain ⟨-, hrx, -⟩ := frameRun_read p s
  have hlen : (s.frameIn (mosiBytes s (.read p))).length = 260 := frameIn_mosiBytes_length (i := .read p) rfl s
  have hdata : (s.frameIn (mosiBytes s (.read p))).drop 4 = (readFrame p s).rxbuf.toList := by
    refine List.ext_getElem (by simp [hlen]) fun k _ hk => ?_
    have hbyte := hrx ⟨k, by simpa using hk⟩
    rw [List.getElem_drop, Vector.getElem_toList, List.getElem_eq_iff, Nat.add_comm]
    exact hbyte
  obtain ⟨hdr, hhdr⟩ := exists_vector_toList (n := 4) (l := (s.frameIn (mosiBytes s (.read p))).take 4) (by simp [hlen])
  exact ⟨hdr, by rw [hhdr, ← hdata, List.take_append_drop]⟩

/-! ### The frames -/

/-- An identify frame leaves a responder as it was, ready or busy (R61, R66). -/
theorem jedecIdFrame_dev {r : Responder} (hd : s.dev = .responder r) :
    (jedecIdFrame s).dev = .responder { r with frame := none } := by
  by_cases hb : r.busy = true
  · exact (frameRun_jedecId s).1.dev.trans (frameDev_busy hd hb (op := opJedecId) _ (by decide))
  · exact (jedecIdFrame_ready ⟨hd, Bool.eq_false_of_not_eq_true hb⟩).2

/-- The three frames of the opcode alone are `opFrame` (R111 to R113). -/
theorem exec_opcodeOnly {i : Instr} (hi : i = .wren ∨ i = .wrdi ∨ i = .chipErase) (s : State) :
    exec i s = .next (opFrame i.opcode s) := by
  obtain rfl | rfl | rfl := hi
  exacts [exec_wren s, exec_wrdi s, exec_chipErase s]

/-- A frame of the opcode alone leaves every byte of the array: it is no status read and addresses no page (R64, log 26). -/
theorem sameArray_opcodeOnly {i : Instr} (hi : i = .wren ∨ i = .wrdi ∨ i = .chipErase) (s : State) :
    s.SameArray (opFrame i.opcode s) := by
  refine framesKeepTheArray i s _ ?_ (exec_opcodeOnly hi s) fun r _ => ?_
  · obtain rfl | rfl | rfl := hi <;> rfl
  · obtain rfl | rfl | rfl := hi <;> simp

/-! ### The claims

In a namespace of their own: two of them have the name of the frame's meaning. -/

namespace Claims

/-- Settles O8: the bytes received are one that is dropped and then ID (`frameIn_jedecId`); the responder's side is
`jedecIdFrame_dev`. -/
theorem jedecIdFrame : Obligations.JedecIdFrame := by
  intro s
  obtain ⟨run, -, hrx, hsample⟩ := frameRun_jedecId s
  obtain ⟨b, m, ty, cap, hin, hid⟩ := frameIn_jedecId s
  refine ⟨b, m, ty, cap, _, exec_jedecId s, run.trace_received hin, hid, run.operands, hrx, hsample, ?_,
    fun _ hd => jedecIdFrame_dev hd⟩
  intro b' m' ty' cap' rest hd
  have hsupply : [b, m, ty, cap] = [b', m', ty', cap'] := hin.symm.trans (frameIn_script (rest := rest) rfl hd)
  simpa using (List.cons.inj hsupply).2

/-- Settles O9: the frame's run on the bus (`frameRun_opFrame`) and the array's (`sameArray_opcodeOnly`). -/
theorem opcodeOnlyFrames : Obligations.OpcodeOnlyFrames := by
  intro s i hi
  obtain ⟨run, hresults⟩ := frameRun_opFrame i.opcode s
  obtain ⟨b, hin⟩ := List.length_eq_one_iff.mp (frameIn_length s [i.opcode])
  exact ⟨b, _, exec_opcodeOnly hi s, run.trace_received hin, run.operands, hresults, sameArray_opcodeOnly hi s⟩

/-- Settles O10: the two bytes received are one that is dropped and then SAMPLE (`frameRun_rdsr1`). -/
theorem statusFrame : Obligations.StatusFrame := by
  intro s
  obtain ⟨run, hin, hrx, hid⟩ := frameRun_rdsr1 s
  refine ⟨_, _, exec_rdsr1 s, run.trace_received hin, run.operands, hrx, hid, fun b' v rest hd => ?_⟩
  have hsupply := hin.symm.trans (frameIn_script (ins := [b', v]) (rest := rest) rfl hd)
  simpa using (List.cons.inj hsupply).2

/-- Settles O11: the bytes received are four that are dropped and then RXBUF (`frameIn_read`). -/
theorem readFrame : Obligations.ReadFrame := by
  intro p s
  obtain ⟨run, -, hid, hsample⟩ := frameRun_read p s
  obtain ⟨hdr, hin⟩ := frameIn_read p s
  exact ⟨hdr, _, _, exec_read p s, run.trace_received hin, rfl, run.operands, hid, hsample⟩

/-- Settles O12: the frame's run on the bus and its registers (`frameRun_pp`). -/
theorem programFrame : Obligations.ProgramFrame := by
  intro p s
  obtain ⟨run, hresults⟩ := frameRun_pp p s
  obtain ⟨ins, hin⟩ := exists_vector_toList (frameIn_mosiBytes_length (i := .pp p) rfl s)
  exact ⟨ins, _, exec_pp p s, run.trace_received hin.symm, run.operands, hresults⟩

/-- Settles O50: `fetch` answers the instruction the bytes decode to, and nothing while a command runs. -/
theorem stepRunsTheDrivenFrame : Obligations.StepRunsTheDrivenFrame := by
  intro s header rest i ha hi
  have hfetch : fetch s = fetchFrame header (withAgenda rest s) := by rw [fetch, ha]
  refine ⟨fun hb => ?_, fun hb => step_done (hfetch.trans (if_pos hb))⟩
  have hrun : fetchFrame header (withAgenda rest s) = .run i (withAgenda rest s) := by
    rw [fetchFrame, withAgenda_ctrlBusy, hb, if_neg Bool.false_ne_true, hi]
  rw [step, hfetch, hrun]
  rfl

end Claims

end Sys2Proof.Machine
end

section
/-! PROOFS. The step tables as runs of rows (R120 to R125): each command's rows up to its poll are the frames of its meaning, and the five rows
P0 to P4 are one status frame and the test of its sample. -/

namespace Sys2Proof.Machine

variable (c : Command) (s : State)

/-! ### The rows of each table before its poll -/

/-- Rows I0 to I5 are the identify frame, then the poll or the end (R120). -/
theorem ticks_i0 : ticks 6 (goto c .i0 s) =
    if s.cfg.identifyPolls then enterPoll c (jedecIdFrame s) else endCommand (jedecIdFrame s) := by
  have rows : ticks 5 (goto c .i0 s) =
      goto c .i5 (storeId 2 (xFill (storeId 1 (xFill (storeId 0 (xFill (xOpcode opJedecId (sel s)))))))) := by
    simp only [ticks, tick_goto, tickRow, sel_goto, xOpcode_goto, xFill_goto, storeId_goto, goto_goto]
  rw [ticks_add _ 5 1, rows, ticks, ticks, tick_goto, tickRow_i5, desel_goto, enterPoll_goto, endCommand_goto]
  simp only [goto_cfg, storeId_cfg, xFill_cfg, xOpcode_cfg, sel_cfg]
  rfl

/-- Rows E0 to E2 are the write-enable frame (R121). -/
theorem ticks_e0 : ticks 3 (goto c .e0 s) = goto c .e3 (opFrame opWren s) := by
  simp only [ticks, tick_goto, tickRow, sel_goto, xOpcode_goto, desel_goto, goto_goto, opFrame]

/-- Rows E3 to E5 are the chip-erase frame, then the poll (R121). -/
theorem ticks_e3 : ticks 3 (goto c .e3 s) = enterPoll c (opFrame opChipErase s) := by
  simp only [ticks, tick_goto, tickRow, sel_goto, xOpcode_goto, desel_goto, goto_goto, enterPoll_goto, opFrame]

/-- Rows W0 to W2 are the write-enable frame (R123). -/
theorem ticks_w0 : ticks 3 (goto c .w0 s) = goto c .w3 (opFrame opWren s) := by
  simp only [ticks, tick_goto, tickRow, sel_goto, xOpcode_goto, desel_goto, goto_goto, opFrame]

/-- The opcode and the three address bytes leave BYTE_CNT at the byte before the first of the page (R24). -/
theorem addressPhase_byteCnt (op : Byte) (p : PageIndex) : (addressPhase op p s).byteCnt = 3 := by
  simp only [addressPhase, xNext_byteCnt, xOpcode_byteCnt]

/-- Rows RD0 to RD6 are the read frame of PAGE_LATCH, then the poll (R122). -/
theorem ticks_rd0 : ticks 262 (goto c .rd0 s) = enterPoll c (readFrame s.pageLatch s) := by
  have header : ticks 5 (goto c .rd0 s) = goto c .rd5 (addressPhase opRead s.pageLatch s) := by
    simp only [ticks, tick_goto, tickRow, sel_goto, xOpcode_goto, xNext_goto, goto_goto, goto_pageLatch, sel_pageLatch,
      xOpcode_pageLatch, xNext_pageLatch, addressPhase]
  have data := ticks_rd5 c _ 255 0 (Nat.zero_add _) (addressPhase_byteCnt s opRead s.pageLatch)
  rw [List.drop_zero] at data
  show ticks (5 + (255 + 1) + 1) (goto c .rd0 s) = _
  rw [ticks_add, ticks_add, header, data, ticks, ticks, tick_goto, tickRow, desel_goto, enterPoll_goto, readFrame]

/-- Rows W3 to W9 are the program frame of PAGE_LATCH, then the poll (R123). -/
theorem ticks_w3 : ticks 262 (goto c .w3 s) = enterPoll c (ppFrame s.pageLatch s) := by
  have header : ticks 5 (goto c .w3 s) = goto c .w8 (addressPhase opPp s.pageLatch s) := by
    simp only [ticks, tick_goto, tickRow, sel_goto, xOpcode_goto, xNext_goto, goto_goto, goto_pageLatch, sel_pageLatch,
      xOpcode_pageLatch, xNext_pageLatch, addressPhase]
  have data := ticks_w8 c _ 255 0 (Nat.zero_add _) (addressPhase_byteCnt s opPp s.pageLatch)
  rw [List.drop_zero] at data
  show ticks (5 + (255 + 1) + 1) (goto c .w3 s) = _
  rw [ticks_add, ticks_add, header, data, ticks, ticks, tick_goto, tickRow, desel_goto, enterPoll_goto, ppFrame]

/-! ### Whole commands -/

/-- From the entry into the poll, the rows up to its first test (R125). -/
theorem ticks_enterPoll : ticks (passRows s.cfg.pollFraming) (enterPoll c s) = pollOnce c (enterPoll c s) :=
  ticks_poll c (enterPoll c s)

/-- Rows that lead into the poll, then those up to its first test. -/
theorem ticks_then_poll {c : Command} {s u : State} {n : Nat} (h : ticks n s = enterPoll c u) (hcfg : u.cfg = s.cfg) :
    ticks (n + passRows s.cfg.pollFraming) s = pollOnce c (enterPoll c u) := by
  rw [ticks_add, h, ← hcfg, ticks_enterPoll]

/-- From its first row, a command's table up to its first poll decision does what the command's meaning does (R120 to R125). -/
theorem ticks_command : ticks (rowCount s.cfg c) (goto c (firstRow c) s) = c.run s := by
  cases c with
  | identify =>
    have rows := ticks_i0 .identify s
    simp only [Command.run, runIdentify, rowCount]
    cases hp : s.cfg.identifyPolls with
    | false => rwa [hp] at rows
    | true =>
      rw [hp] at rows
      exact ticks_then_poll rows (frameRun_jedecId s).1.operands.1
  | eraseChip =>
    have rows : ticks 6 (goto .eraseChip .e0 s) = enterPoll .eraseChip (opFrame opChipErase (opFrame opWren s)) := by
      rw [ticks_add _ 3 3, ticks_e0, ticks_e3]
    exact ticks_then_poll rows rfl
  | readPage => exact ticks_then_poll (ticks_rd0 .readPage s) (frameRun_read s.pageLatch s).1.operands.1
  | writePage =>
    have hlatch : (opFrame opWren s).pageLatch = s.pageLatch := (keeps_opFrame (rx := True) (ident := True) s opWren).latch
    have rows : ticks 265 (goto .writePage .w0 s) = enterPoll .writePage (ppFrame s.pageLatch (opFrame opWren s)) := by
      rw [ticks_add _ 3 262, ticks_w0, ticks_w3, hlatch]
    exact ticks_then_poll rows (ppFrame_opFrame_cfg s.pageLatch opWren s)
  | pollUntilReady => exact ticks_poll .pollUntilReady s

/-- An idle controller runs a host command from its acceptance (R16). -/
theorem exec_accepted {i : Instr} {c : Command} {s : State} (hc : commandOf i = some c) (hidle : s.ctrlBusy = false) :
    exec i s = .next (c.run (accept c s)) := by
  rw [exec_command hc, whenIdle_idle hidle]

/-- Settles O22: acceptance stands at the first row of the table, and `ticks_command` runs the table. -/
theorem commandsFollowTheirStepTables : Obligations.CommandsFollowTheirStepTables := by
  intro i c s hc hidle
  rw [exec_accepted hc hidle, ← ticks_command c (accept c s), ← accept_at, accept_cfg]

/-! ### The poll -/

theorem leavePoll_eq : leavePoll c s = if s.cfg.pollFraming = .perSample then endCommand s else goto c .p3 s := by
  unfold leavePoll
  cases s.cfg.pollFraming <;> rfl

theorem againRow_eq (pf : PollFraming) : againRow pf = if pf = .perSample then .p0 else .p2 := by
  cases pf <;> rfl

/-- The test P4 without a limit (R125). -/
theorem pollTest_unlimited {s : State} (h : s.cfg.pollLimit = none) :
    pollTest c s = if s.sampleBusy then goto c (againRow s.cfg.pollFraming) s else leavePoll c s := by
  rw [pollTest, h]

/-- Settles O35: row P4 is `pollTest`, whose two ways on are `againRow_eq` and `leavePoll_eq`. -/
theorem pollTestRow : Obligations.PollTestRow := by
  intro s c hs
  rw [tick_at hs, tickRow]
  cases hl : s.cfg.pollLimit with
  | none =>
    rw [pollTest_unlimited c hl, againRow_eq, leavePoll_eq]
    rfl
  | some n =>
    simp only [pollTest, hl, raiseDeviceTimeout, againRow_eq, leavePoll_eq]
    rfl


end Sys2Proof.Machine
end

section
/-! PROOFS. The first pass of a poll as each command leaves it (R125, R158): its events, what decides it, and what it leaves alone; then the
commands that close with it (R120 to R124). -/

namespace Sys2Proof.Machine

variable {c : Command} {s t u : State}

/-! ### The first pass of a poll -/

theorem State.SameOperands.trans (h : s.SameOperands t) (k : t.SameOperands u) : s.SameOperands u := by
  unfold State.SameOperands at *
  simp_all

/-- The first pass of a poll is the test of a state that has its sample and the operands as before (R125). -/
theorem pollOnce_test (c : Command) (s : State) : ∃ u, s.SameOperands u ∧ pollOnce c s = pollTest c u :=
  ⟨_, (openPoll_keeps s).1.trans (nextSample_keeps s.openPoll).1, pollOnce_eq c s⟩

/-- The sample the test P4 has tested stays in SAMPLE (R26). -/
theorem busyBit_pollTest (c : Command) (hcfg : t.cfg = s.cfg) :
    busyBit s.cfg.busyMask (pollTest c t).sample = t.sampleBusy := by
  rw [pollTest_eq, ← hcfg]
  rfl

/-- The first pass of a poll puts a status frame on the bus, which a continuous poll leaves open (R125, log 15). -/
theorem pollOnce_trace (c : Command) (s : State) :
    ∃ b, (pollOnce c s).trace = (s.pollEvents b (pollOnce c s).sample).reverse ++ s.trace := by
  obtain ⟨u, ⟨hpf, rfl⟩ | ⟨hpf, rfl⟩, -, htrace, -, hsample, -⟩ := pollOnce_bus c s
  · obtain ⟨run, hin, -⟩ := frameRun_rdsr1 s
    simp only [htrace, hsample, State.pollEvents, hpf]
    exact ⟨_, run.trace_received hin⟩
  · obtain ⟨-, -, -, hin⟩ := statusPhase_keeps s
    have hrun : (statusPhase s).trace = (transfers [opRdsr1, s.cfg.dummyByte] (s.frameIn [opRdsr1, s.cfg.dummyByte])).reverse ++
        .sel :: s.trace := (busRun_statusPhase s).trace
    rw [hin] at hrun
    simp only [htrace, hsample, State.pollEvents, hpf, List.reverse_cons, List.append_assoc, List.singleton_append]
    exact ⟨_, hrun⟩

/-- The first pass of a poll leaves the operands and the host's side alone (R125). -/
theorem pollOnce_sameHostSide (c : Command) (s : State) : s.SameHostSide (pollOnce c s) := by
  obtain ⟨u, ⟨hcfg, hpage, htx, -, -, -, -, -, hagenda, hrdata⟩, hpoll⟩ := pollOnce_test c s
  rw [hpoll, pollTest_eq]
  exact ⟨hcfg, hpage, htx, hagenda, hrdata⟩

theorem pollLeft_leavePoll (hcfg : t.cfg = s.cfg) (hbusy : t.ctrlBusy = true) : s.PollLeft c (leavePoll c t) := by
  unfold State.PollLeft
  rw [leavePoll_eq, hcfg]
  cases s.cfg.pollFraming with
  | perSample => exact ⟨rfl, rfl⟩
  | continuous => exact ⟨rfl, hbusy⟩

theorem pollAgain_goto (hcfg : t.cfg = s.cfg) (hbusy : t.ctrlBusy = true) :
    s.PollAgain c (goto c (againRow t.cfg.pollFraming) t) := by
  unfold State.PollAgain
  rw [hcfg]
  cases s.cfg.pollFraming with
  | perSample => exact ⟨hbusy, rfl⟩
  | continuous => exact ⟨hbusy, rfl⟩

/-- The test of the first sample decides the poll by the sample and the limit (R125, R158). -/
theorem pollDecided_pollTest (hcfg : t.cfg = s.cfg) (hbusy : t.ctrlBusy = true) (herr : t.errTimeout = false)
    (hcnt : t.pollCnt = 0) : s.PollDecided c (pollTest c t) := by
  unfold State.PollDecided
  rw [busyBit_pollTest c hcfg]
  obtain ⟨hb, ht⟩ | ⟨hb, hlimit, ht⟩ | ⟨hb, hlimit, ht⟩ := pollTest_cases c t
  · rw [if_pos hb, ht]
    exact ⟨pollLeft_leavePoll hcfg hbusy, (leavePoll_errTimeout _ c).trans herr⟩
  · rw [hcfg, hcnt] at hlimit
    rw [if_neg (by simp [hb]), if_pos hlimit, ht]
    exact ⟨pollLeft_leavePoll hcfg hbusy, raiseDeviceTimeout_errTimeout _ c⟩
  · rw [hcfg, hcnt] at hlimit
    rw [if_neg (by simp [hb]), if_neg hlimit, ht]
    exact ⟨pollAgain_goto (t := { t with pollCnt := t.countedSamples }) hcfg hbusy, herr⟩

/-- The first pass of a poll decides it by its sample and the limit (R125, R158). -/
theorem pollDecided_pollOnce (hcfg : t.cfg = s.cfg) (hbusy : t.ctrlBusy = true) (herr : t.errTimeout = false)
    (hcnt : t.pollCnt = 0) : s.PollDecided c (pollOnce c t) := by
  obtain ⟨u, ⟨hcfg', -, -, -, hbusy', herr', hcnt', -⟩, hpoll⟩ := pollOnce_test c t
  rw [hpoll]
  exact pollDecided_pollTest (hcfg'.trans hcfg) (hbusy'.trans hbusy) (herr'.trans herr) (hcnt'.trans hcnt)

/-- What the poll leaves alone of the state its command's frames leave (R125). -/
theorem keeps_poll {rx ident : Prop} (c : Command) (s : State) : Keeps rx ident s (pollOnce c (enterPoll c s)) :=
  (keeps_enterPoll c s).trans (keeps_pollOnce c _)

/-- Settles O34: the five rows are the first pass of a poll, and its test has no limit to look at. -/
theorem pollIteration : Obligations.PollIteration := by
  intro s c hs hlimit hpf
  have rows : ticks 5 s = pollOnce c s := by
    have h := ticks_poll c s
    rwa [hpf, goto_self hs] at h
  rw [rows]
  obtain ⟨b, htrace⟩ := pollOnce_trace c s
  obtain ⟨u, ⟨hcfg, -, -, -, hbusy, -⟩, hpoll⟩ := pollOnce_test c s
  have hkeeps : Keeps True True s (pollOnce c s) := keeps_pollOnce c s
  refine ⟨b, ?_, ?_, pollOnce_sameHostSide c s, hkeeps.rxbuf trivial, hkeeps.id trivial, hkeeps.latch⟩
  · simpa only [State.pollEvents, hpf] using htrace
  · rw [hpoll, busyBit_pollTest c hcfg, pollTest_unlimited c (hcfg ▸ hlimit), leavePoll_eq, againRow_eq, hcfg, hpf]
    cases u.sampleBusy with
    | true => exact ⟨rfl, hbusy⟩
    | false => exact ⟨rfl, rfl⟩

/-! ### Commands that close with a poll -/

/-- An idle controller's command `c` at its first poll decision: the events of its frames and of the pass, how it stands, and the host's side
as before. -/
structure Polled (c : Command) (evs : List BusEvent) (s t : State) : Prop where
  trace : ∃ b, t.trace = (evs ++ s.pollEvents b t.sample).reverse ++ s.trace
  decided : s.PollDecided c t
  host : s.SameHostSide t

/-- After its frames, a command enters its poll and makes the first pass. -/
theorem polled_pollOnce {evs : List BusEvent} (hops : (accept c s).SameOperands u) (htrace : u.trace = evs.reverse ++ s.trace) :
    Polled c evs s (pollOnce c (enterPoll c u)) := by
  obtain ⟨hcfg, hpage, htx, -, hbusy, herr, -, -, hagenda, hrdata⟩ := hops
  obtain ⟨b, hpass⟩ := pollOnce_trace c (enterPoll c u)
  obtain ⟨hcfg', hpage', htx', hagenda', hrdata'⟩ := pollOnce_sameHostSide c (enterPoll c u)
  have hevents (v : Byte) : (enterPoll c u).pollEvents b v = s.pollEvents b v := by
    simp only [State.pollEvents, enterPoll_cfg, hcfg, accept_cfg]
  refine ⟨⟨b, ?_⟩, pollDecided_pollOnce hcfg hbusy herr rfl, hcfg'.trans hcfg, hpage'.trans hpage, htx'.trans htx,
    hagenda'.trans hagenda, hrdata'.trans hrdata⟩
  rw [hpass, hevents, enterPoll_trace, htrace, List.reverse_append, List.append_assoc]

/-- The trace of a frame of the opcode alone (R71). -/
theorem opFrame_trace (op : Byte) (s : State) : ∃ b, (opFrame op s).trace = (frameEvents [op] [b]).reverse ++ s.trace := by
  obtain ⟨b, hin⟩ := List.length_eq_one_iff.mp (frameIn_length s [op])
  exact ⟨b, (frameRun_opFrame op s).1.trace_received hin⟩

/-- Two runs of events one after the other. -/
theorem trace_append {xs ys : List BusEvent} (h : t.trace = xs.reverse ++ s.trace) (k : u.trace = ys.reverse ++ t.trace) :
    u.trace = (xs ++ ys).reverse ++ s.trace := by
  rw [k, h, List.reverse_append, List.append_assoc]

/-- Settles O24: the frame's law (`frameRun_jedecId`), its bytes, and the end of the command. -/
theorem identifyCommand : Obligations.IdentifyCommand := by
  intro s hidle hpolls
  obtain ⟨run, -, hrx, hsample⟩ := frameRun_jedecId (accept .identify s)
  obtain ⟨b, m, ty, cap, hin, hid⟩ := frameIn_jedecId (accept .identify s)
  obtain ⟨hcfg, hpage, htx, hlatch, -, herr, hcnt, -, hagenda, hrdata⟩ := run.operands
  have hrun : Command.run .identify (accept .identify s) = endCommand (jedecIdFrame (accept .identify s)) :=
    if_neg (by simp [hpolls])
  refine ⟨b, m, ty, cap, _, (exec_accepted rfl hidle).trans (congrArg _ hrun), run.trace_received hin, hid, rfl, rfl, hlatch,
    ⟨hcfg, hpage, htx, hagenda, hrdata⟩, hrx, hsample, herr, hcnt⟩

/-- Settles O25: the identify frame, then the poll. -/
theorem identifyThatPolls : Obligations.IdentifyThatPolls := by
  intro s hidle hpolls
  obtain ⟨run, -, hrx, -⟩ := frameRun_jedecId (accept .identify s)
  obtain ⟨b, m, ty, cap, hin, hid⟩ := frameIn_jedecId (accept .identify s)
  have hrun : Command.run .identify (accept .identify s) =
      pollOnce .identify (enterPoll .identify (jedecIdFrame (accept .identify s))) := if_pos hpolls
  obtain ⟨⟨b', htrace⟩, hdecided, hhost⟩ := polled_pollOnce run.operands (run.trace_received hin)
  have hkeeps : Keeps True True _ _ := keeps_poll .identify (jedecIdFrame (accept .identify s))
  exact ⟨b, m, ty, cap, b', _, (exec_accepted rfl hidle).trans (congrArg _ hrun), htrace, (hkeeps.id trivial).trans hid, hdecided,
    hhost, (hkeeps.rxbuf trivial).trans hrx⟩

/-- Settles O26: the write-enable and the chip-erase frame, then the poll. -/
theorem eraseChipCommand : Obligations.EraseChipCommand := by
  intro s hidle
  obtain ⟨b0, hwren⟩ := opFrame_trace opWren (accept .eraseChip s)
  obtain ⟨b1, herase⟩ := opFrame_trace opChipErase (opFrame opWren (accept .eraseChip s))
  have hops := (frameRun_opFrame opWren (accept .eraseChip s)).1.operands.trans (frameRun_opFrame opChipErase _).1.operands
  obtain ⟨⟨b2, htrace⟩, hdecided, hhost⟩ := polled_pollOnce hops (trace_append hwren herase)
  have hkeeps := keeps_command .eraseChip (accept .eraseChip s)
  exact ⟨b0, b1, b2, _, exec_accepted rfl hidle, htrace, hdecided, hhost, hkeeps.latch, hkeeps.rxbuf (by simp),
    hkeeps.id (by simp)⟩

/-- Settles O27: the read frame of the page latched at acceptance, then the poll, which leaves RXBUF alone. -/
theorem readPageCommand : Obligations.ReadPageCommand := by
  intro s hidle
  have run := (frameRun_read s.pageIndex (accept .readPage s)).1
  obtain ⟨hdr, hin⟩ := frameIn_read s.pageIndex (accept .readPage s)
  obtain ⟨⟨b, htrace⟩, hdecided, hhost⟩ := polled_pollOnce run.operands (run.trace_received hin)
  have hpoll : Keeps True True _ _ := keeps_poll .readPage (readFrame s.pageIndex (accept .readPage s))
  have hkeeps := keeps_command .readPage (accept .readPage s)
  exact ⟨hdr, _, b, _, exec_accepted rfl hidle, htrace, hpoll.rxbuf trivial, hdecided, hhost, hkeeps.latch, hkeeps.id (by simp)⟩

/-- Settles O28: the write-enable frame and the program frame of the page latched at acceptance, then the poll. -/
theorem writePageCommand : Obligations.WritePageCommand := by
  intro s hidle
  obtain ⟨b0, hwren⟩ := opFrame_trace opWren (accept .writePage s)
  have hops := (frameRun_opFrame opWren (accept .writePage s)).1.operands
  have run := (frameRun_pp s.pageIndex (opFrame opWren (accept .writePage s))).1
  obtain ⟨ins, hins⟩ := exists_vector_toList
    (frameIn_mosiBytes_length (i := .pp s.pageIndex) rfl (opFrame opWren (accept .writePage s)))
  obtain ⟨⟨b1, htrace⟩, hdecided, hhost⟩ := polled_pollOnce (hops.trans run.operands)
    (trace_append hwren (run.trace_received hins.symm))
  have hkeeps := keeps_command .writePage (accept .writePage s)
  exact ⟨b0, b1, ins, _, exec_accepted rfl hidle, htrace, hdecided, hhost, hkeeps.latch, hkeeps.rxbuf (by simp),
    hkeeps.id (by simp)⟩

/-- Settles O29: acceptance enters the poll at once. -/
theorem pollUntilReadyCommand : Obligations.PollUntilReadyCommand := by
  intro s hidle
  have hops : (accept .pollUntilReady s).SameOperands (accept .pollUntilReady s) := by simp [State.SameOperands]
  obtain ⟨⟨b, htrace⟩, hdecided, hhost⟩ := polled_pollOnce (evs := []) hops rfl
  have hkeeps := keeps_command .pollUntilReady (accept .pollUntilReady s)
  exact ⟨b, _, exec_accepted rfl hidle, htrace, hdecided, hhost, hkeeps.latch, hkeeps.rxbuf (by simp), hkeeps.id (by simp)⟩

end Sys2Proof.Machine
end

section
/-! PROOFS. Polls without a limit (R125, R126, R156): on a supplied bus the poll ends at the first clear sample; on a device that is busy for
ever it goes on for ever. -/

namespace Sys2Proof.Machine

variable {s t u : State}

/-! ### A supplied bus -/

/-- The bytes of the supply that one more sample takes: both of its own frame (R125), or one of the open frame (log 15). -/
def sampleAnswers : PollFraming → Byte × Byte → List Byte
  | .perSample, q => [q.1, q.2]
  | .continuous, q => [q.2]

/-- The bytes of the supply that go before the first sample's own: the answer to the opcode of a continuous poll (log 15). -/
def openAnswers : PollFraming → Byte → List Byte
  | .perSample, _ => []
  | .continuous, b => [b]

theorem openPoll_script {b : Byte} {l : List Byte} (hd : s.dev = .script (openAnswers s.cfg.pollFraming b ++ l)) :
    s.openPoll.dev = .script l := by
  unfold State.openPoll
  cases hpf : s.cfg.pollFraming with
  | perSample => rwa [hpf] at hd
  | continuous =>
    rw [hpf] at hd
    rw [xOpcode_dev, State.answer, sel_dev, hd]
    rfl

/-- One more sample takes its bytes of the supply, and closes the frame it opened (R103, R125). -/
theorem nextSample_script {q : Byte × Byte} {rest : List Byte}
    (hd : s.dev = .script (sampleAnswers s.cfg.pollFraming q ++ rest)) : s.nextSample.sample = q.2 ∧
      s.nextSample.dev = .script rest ∧ (s.cfg.pollFraming = .perSample → s.nextSample.csN = true) := by
  unfold State.nextSample
  cases hpf : s.cfg.pollFraming with
  | perSample =>
    rw [hpf] at hd
    obtain ⟨run, hin, -⟩ := frameRun_rdsr1 s
    have hsupply := hin.symm.trans (frameIn_script (ins := [q.1, q.2]) rfl hd)
    exact ⟨by simpa using (List.cons.inj hsupply).2, run.dev.trans (frameDev_script (ins := [q.1, q.2]) rfl hd), fun _ => rfl⟩
  | continuous =>
    rw [hpf] at hd
    have hanswer : s.answer s.cfg.dummyByte = (q.2, .script rest) := by
      rw [State.answer, hd]
      rfl
    refine ⟨?_, ?_, nofun⟩
    · rw [storeSample_sample, xSample_shi, hanswer]
    · rw [storeSample_dev, xSample_dev, hanswer]

/-- A command has ended on a supplied bus: its last sample was `v`, CS_N is 1, the supply left is `rest`, and there were `n` bus events
since `s`. -/
structure SupplyEnded (v : Byte) (rest : List Byte) (n : Nat) (s t : State) : Prop where
  idle : t.seq = .idle
  free : t.ctrlBusy = false
  csN : t.csN = true
  sample : t.sample = v
  supply : t.dev = .script rest
  events : t.trace.length = s.trace.length + n

theorem SupplyEnded.after {v : Byte} {rest : List Byte} {n n' : Nat} (h : SupplyEnded v rest n u t)
    (hev : u.trace.length = s.trace.length + n') : SupplyEnded v rest (n' + n) s t :=
  { h with events := by rw [h.events, hev, Nat.add_assoc] }

/-- The way out of a poll on a supplied bus: the end of the command, or the closing row first (R125, log 15). -/
theorem SupplyEnded.leavePoll {rest : List Byte} (c : Command) (hd : s.dev = .script rest)
    (hcs : s.cfg.pollFraming = .perSample → s.csN = true) :
    SupplyEnded s.sample rest (closeEvents s.cfg.pollFraming) s (ticks (pollRest s.cfg.pollFraming 0) (leavePoll c s)) := by
  unfold Machine.leavePoll
  cases hpf : s.cfg.pollFraming with
  | perSample => exact ⟨rfl, rfl, hcs hpf, rfl, hd, rfl⟩
  | continuous =>
    have hrow : ticks (pollRest .continuous 0) (goto c .p3 s) = endCommand (desel s) := tick_close c s hpf
    have hclosed : (desel s).dev = .script rest := by
      rw [desel_dev, hd]
      rfl
    dsimp only
    rw [hrow]
    exact ⟨rfl, rfl, rfl, rfl, hclosed, rfl⟩

/-- An unbounded poll on a supplied bus ends at its first clear sample (R125, R126). -/
theorem supplyEnded_poll (c : Command) {busy : List (Byte × Byte)} {q : Byte × Byte} {rest : List Byte}
    (hlimit : s.cfg.pollLimit = none) (hbusy : ∀ q ∈ busy, busyBit s.cfg.busyMask q.2 = true)
    (hclear : busyBit s.cfg.busyMask q.2 = false)
    (hd : s.dev = .script (busy.flatMap (sampleAnswers s.cfg.pollFraming) ++ (sampleAnswers s.cfg.pollFraming q ++ rest))) :
    SupplyEnded q.2 rest
      (busy.length * sampleEvents s.cfg.pollFraming + (sampleEvents s.cfg.pollFraming + closeEvents s.cfg.pollFraming)) s
      (ticks (pollRest s.cfg.pollFraming busy.length) (pollTest c s.nextSample)) := by
  induction busy generalizing s with
  | nil =>
    obtain ⟨⟨hcfg, -⟩, -, hev⟩ := nextSample_keeps s
    obtain ⟨hsample, hdev, hcs⟩ := nextSample_script hd
    generalize s.nextSample = u at *
    have hb : u.sampleBusy = false := by rw [State.sampleBusy, hcfg, hsample, hclear]
    have hend := SupplyEnded.leavePoll c hdev (hcfg ▸ hcs)
    rw [hcfg, hsample] at hend
    rw [pollTest_unlimited c (hcfg ▸ hlimit), hb, List.length_nil, Nat.zero_mul, Nat.zero_add]
    exact hend.after hev
  | cons q' busy ih =>
    obtain ⟨⟨hcfg, -⟩, -, hev⟩ := nextSample_keeps s
    rw [List.flatMap_cons, List.append_assoc] at hd
    obtain ⟨hsample, hdev, -⟩ := nextSample_script hd
    generalize s.nextSample = u at *
    rw [List.forall_mem_cons] at hbusy
    have hb : u.sampleBusy = true := by rw [State.sampleBusy, hcfg, hsample, hbusy.1]
    rw [← hcfg] at hlimit hclear hdev
    have hend := ih hlimit (hcfg ▸ hbusy.2) hclear hdev
    rw [List.length_cons, pollRest_succ, ticks_add, pollTest_unlimited c hlimit, hb, if_pos rfl, ← hcfg, ticks_again,
      Nat.succ_mul, Nat.add_comm (_ * _), Nat.add_assoc]
    exact hend.after (hcfg ▸ hev)

/-- Settles O36: the first pass opens the poll, and `supplyEnded_poll` takes it to its end. -/
theorem pollEndsAtTheFirstClearSample : Obligations.PollEndsAtTheFirstClearSample := by
  intro s c busy b v rest hs hlimit hbusy hclear hd
  have hsupply : s.dev = .script (openAnswers s.cfg.pollFraming b ++
      (busy.flatMap (sampleAnswers s.cfg.pollFraming) ++ (sampleAnswers s.cfg.pollFraming (b, v) ++ rest))) := by
    rw [hd]
    cases s.cfg.pollFraming with
    | perSample => rfl
    | continuous => rw [List.map_eq_flatMap]; rfl
  obtain ⟨⟨hcfg, -⟩, -, hev⟩ := openPoll_keeps s
  have hdev := openPoll_script hsupply
  have rows := ticks_poll c s
  rw [goto_self hs, pollOnce_eq] at rows
  generalize s.openPoll = u at *
  rw [← hcfg] at hlimit hbusy hclear hdev
  have hend := supplyEnded_poll c hlimit hbusy hclear hdev
  rw [hcfg] at hend
  intro t
  have ht : t = ticks (pollRest s.cfg.pollFraming busy.length) (pollTest c u.nextSample) := by rw [← rows, ← ticks_add]
  obtain ⟨hidle, hfree, hcs, hsample, hrest, hevents⟩ := hend.after hev
  rw [ht, pollEventCount_succ]
  exact ⟨hidle, hfree, hcs, hsample, hrest, hevents⟩

/-! ### A device that is busy for ever -/

/-- The steps of a machine with no host move pending are rows (R20, log 7). -/
theorem run_ticks (n : Nat) (h : s.agenda = []) : Sys2Proof.core.run n s = .next (ticks n s) := by
  induction n generalizing s with
  | zero => rfl
  | succ n ih =>
    have hstep : Sys2Proof.core.step s = .next (tick s) := step_done (by rw [fetch, h])
    have hagenda : (tick s).agenda = [] := by
      obtain hs | ⟨c, r, hs⟩ := seq_cases s
      · rwa [tick_idle hs]
      · rw [tick_at hs, tickRow_agenda, h]
    simp only [Host.Core.run, hstep]
    exact ih hagenda

/-- The rows before the first sample's own: `Sel` and the opcode of a continuous poll (log 15). -/
def openRows : PollFraming → Nat
  | .perSample => 0
  | .continuous => 2

/-- From row P0 to the row a busy sample goes back to (R125, log 15). -/
theorem ticks_openPoll (c : Command) (s : State) :
    ticks (openRows s.cfg.pollFraming) (goto c .p0 s) = goto c (againRow s.cfg.pollFraming) s.openPoll := by
  unfold State.openPoll
  cases s.cfg.pollFraming with
  | perSample => rfl
  | continuous => simp only [openRows, ticks, tick_goto, tickRow, sel_goto, xOpcode_goto, goto_goto, againRow]

/-- A running command about to take a sample, with no limit, of a responder that is busy for ever (R65, R156). -/
structure Stuck (s : State) : Prop where
  mask : s.cfg.busyMask ≠ 0
  unlimited : s.cfg.pollLimit = none
  running : s.ctrlBusy = true
  device : ∃ r, s.dev = .responder r ∧ r.busy = true ∧ r.remaining = .forever ∧ inStatusFrame s.cfg.pollFraming r.frame

/-- A sample of the stuck device reads busy and leaves it stuck (R61 (2), (3)). -/
theorem Stuck.nextSample (h : Stuck s) : s.nextSample.sampleBusy = true ∧ Stuck s.nextSample := by
  obtain ⟨hmask, hlimit, hrun, r, hd, hb, hr, hfr⟩ := h
  obtain ⟨⟨hcfg, -, -, -, hrun', -⟩, -⟩ := nextSample_keeps s
  obtain ⟨f, fr, hsample, hdev, hfr'⟩ := nextSample_sample hd hfr
  rw [Responder.status_busy f hb (by simp [hr])] at hsample hdev
  refine ⟨?_, by rwa [hcfg], by rwa [hcfg], hrun'.trans hrun, _, hdev, hb, ?_, by rwa [hcfg]⟩
  · rw [State.sampleBusy, hcfg, hsample, busyBit_statusByte hmask]
  · rw [hr]
    rfl

/-- Any number of samples of the stuck device leave the poll going on (R156). -/
theorem Stuck.ticks (c : Command) (n : Nat) (h : Stuck s) : ∃ u, u.ctrlBusy = true ∧
    Machine.ticks (sampleRows s.cfg.pollFraming * n) (goto c (againRow s.cfg.pollFraming) s) =
      goto c (againRow s.cfg.pollFraming) u ∧
    u.trace.length = s.trace.length + sampleEvents s.cfg.pollFraming * n := by
  induction n generalizing s with
  | zero => exact ⟨s, h.running, rfl, rfl⟩
  | succ n ih =>
    obtain ⟨⟨hcfg, -⟩, -, hev⟩ := nextSample_keeps s
    obtain ⟨hbusy, hnext⟩ := h.nextSample
    have rows := ticks_again c s
    generalize s.nextSample = u at *
    rw [pollTest_unlimited c hnext.unlimited, hbusy, if_pos rfl] at rows
    obtain ⟨t, hrun, hticks, hevents⟩ := ih hnext
    rw [hcfg] at rows hticks hevents
    refine ⟨t, hrun, ?_, ?_⟩
    · rw [Nat.mul_succ, Nat.add_comm, ticks_add, rows, hticks]
    · rw [hevents, hev, Nat.mul_succ]
      omega

/-- The first sample of a poll without a limit finds the device stuck (R156). -/
theorem stuck_openPoll {r : Responder} (hrun : s.ctrlBusy = true) (hlimit : s.cfg.pollLimit = none) (hmask : s.cfg.busyMask ≠ 0)
    (hd : s.dev = .responder r) (hb : r.busy = true) (hr : r.remaining = .forever) : Stuck s.openPoll := by
  obtain ⟨⟨hcfg, -, -, -, hrun', -⟩, -⟩ := openPoll_keeps s
  obtain ⟨fr, hdev, hfr⟩ := openPoll_dev hd
  exact ⟨by rwa [hcfg], by rwa [hcfg], hrun'.trans hrun, _, hdev, hb, hr, by rwa [hcfg]⟩

/-- A poll of the stuck device through `n` samples from row P0, in either framing (R156). -/
theorem run_stuck {c : Command} (n : Nat) (ha : s.agenda = []) (hs : s.seq = .at c .p0) (h : Stuck s.openPoll) : ∃ t,
    Sys2Proof.core.run (openRows s.cfg.pollFraming + sampleRows s.cfg.pollFraming * n) s = .next t ∧
      t.seq = .at c (againRow s.cfg.pollFraming) ∧ t.ctrlBusy = true ∧
      t.trace.length = s.trace.length + (openEvents s.cfg.pollFraming + sampleEvents s.cfg.pollFraming * n) := by
  obtain ⟨⟨hcfg, -⟩, -, hev⟩ := openPoll_keeps s
  have rows := ticks_openPoll c s
  obtain ⟨t, hbusy, hticks, hevents⟩ := h.ticks c n
  rw [goto_self hs] at rows
  rw [hcfg] at hticks hevents
  refine ⟨_, run_ticks _ ha, ?_⟩
  rw [ticks_add, rows, hticks]
  exact ⟨rfl, hbusy, by rw [goto_trace, hevents, hev, Nat.add_assoc]⟩

/-- Settles O37: `run_stuck` in each framing. -/
theorem stuckDeviceHangsForever : Obligations.StuckDeviceHangsForever := by
  intro s c r n ha hs hrun hlimit hmask hd hb hr
  obtain ⟨t, ht, hseq, hbusy, hevents⟩ := run_stuck n ha hs (stuck_openPoll hrun hlimit hmask hd hb hr)
  refine ⟨fun hpf => ?_, fun hpf => ?_⟩
  · rw [hpf] at ht hseq hevents
    exact ⟨t, by simpa [openRows, sampleRows] using ht, hseq, hbusy, by simpa [openEvents, sampleEvents] using hevents⟩
  · rw [hpf] at ht hseq hevents
    exact ⟨t, ht, hseq, hbusy, by simpa [openEvents, sampleEvents, Nat.add_assoc] using hevents⟩

end Sys2Proof.Machine
end

section
/-! PROOFS. A poll with a limit (R158): on a device that is busy for ever it gives up at the last sample the limit allows, with ERR_TIMEOUT
set and the bus idle. -/

namespace Sys2Proof.Machine

variable {s t u : State} {k : Nat}

/-! ### The limit is reached -/

/-- CS_N is 1 where every sample closes its own frame (R125); a continuous poll still has its one frame to close (log 15). -/
def State.FrameClosed (s : State) : Prop := s.cfg.pollFraming = .perSample → s.csN = true

theorem nextSample_frameClosed (s : State) : s.nextSample.FrameClosed := by
  unfold State.FrameClosed
  rw [(nextSample_keeps s).1.1, State.nextSample]
  intro hpf
  rw [hpf]
  rfl

/-- A command has ended with ERR_TIMEOUT set, CS_N = 1 and `n` bus events since `s`. -/
structure GaveUp (n : Nat) (s t : State) : Prop where
  idle : t.seq = .idle
  free : t.ctrlBusy = false
  csN : t.csN = true
  timedOut : t.errTimeout = true
  events : t.trace.length = s.trace.length + n

/-- The events before count too. -/
theorem GaveUp.after {n n' : Nat} (h : GaveUp n u t) (hev : u.trace.length = s.trace.length + n') : GaveUp (n' + n) s t :=
  { h with events := by rw [h.events, hev, Nat.add_assoc] }

/-- A timeout ends the command, after the closing row where a frame is still open (R158, log 15). -/
theorem gaveUp_raiseDeviceTimeout (c : Command) (hclosed : s.FrameClosed) :
    GaveUp (closeEvents s.cfg.pollFraming) s (ticks (pollRest s.cfg.pollFraming 0) (raiseDeviceTimeout c s)) := by
  rw [raiseDeviceTimeout, leavePoll_eq]
  cases hpf : s.cfg.pollFraming with
  | perSample => exact ⟨rfl, rfl, hclosed hpf, rfl, rfl⟩
  | continuous =>
    have hrow : ticks (pollRest .continuous 0) (goto c .p3 { s with errTimeout := true }) =
        endCommand (desel { s with errTimeout := true }) := tick_close c _ hpf
    rw [if_neg nofun, hrow]
    exact ⟨rfl, rfl, rfl, rfl, rfl⟩

/-- A busy sample that is the last one the limit allows is a timeout (R158). -/
theorem pollTest_timeout (c : Command) (h : s.sampleBusy = true) (hlimit : s.cfg.pollLimit = some (s.pollCnt + 1)) :
    pollTest c s = raiseDeviceTimeout c s.counted := by
  obtain ⟨hb, -⟩ | ⟨-, -, ht⟩ | ⟨-, hmore, -⟩ := pollTest_cases c s
  · exact absurd (hb.symm.trans h) Bool.false_ne_true
  · exact ht
  · exact absurd hlimit hmore

/-! ### The samples before it -/

/-- A poll about to take a sample of a responder that is busy for ever, with `k` more after it before the limit (R65, R158). -/
structure StuckWithin (k : Nat) (s : State) : Prop where
  mask : s.cfg.busyMask ≠ 0
  limit : s.cfg.pollLimit = some (s.pollCnt + (k + 1))
  device : ∃ r, s.dev = .responder r ∧ r.busy = true ∧ r.remaining = .forever ∧ inStatusFrame s.cfg.pollFraming r.frame

/-- A sample of the stuck device reads busy, and leaves the device and the limit as they were (R61 (2), (3)). -/
theorem StuckWithin.nextSample (h : StuckWithin k s) : s.nextSample.sampleBusy = true ∧ StuckWithin k s.nextSample := by
  obtain ⟨hmask, hlimit, r, hd, hb, hr, hfr⟩ := h
  obtain ⟨⟨hcfg, -, -, -, -, -, hcnt, -⟩, -⟩ := nextSample_keeps s
  obtain ⟨f, fr, hsample, hdev, hfr'⟩ := nextSample_sample hd hfr
  rw [Responder.status_busy f hb (by simp [hr])] at hsample hdev
  refine ⟨?_, by rwa [hcfg], by rwa [hcfg, hcnt], _, hdev, hb, ?_, by rwa [hcfg]⟩
  · rw [State.sampleBusy, hcfg, hsample, busyBit_statusByte hmask]
  · rw [hr]
    rfl

/-- The test P4 takes one sample off those the limit allows (R158). -/
theorem StuckWithin.counted (h : StuckWithin (k + 1) s) : StuckWithin k s.counted := by
  obtain ⟨hmask, hlimit, hdevice⟩ := h
  refine ⟨hmask, ?_, hdevice⟩
  rw [counted_pollCnt hlimit, counted_cfg, hlimit]
  congr 1
  omega

/-- A poll of the stuck device gives up at the last sample its limit allows (R158). -/
theorem StuckWithin.gaveUp (c : Command) (h : StuckWithin k s) :
    GaveUp (k * sampleEvents s.cfg.pollFraming + (sampleEvents s.cfg.pollFraming + closeEvents s.cfg.pollFraming)) s
      (ticks (pollRest s.cfg.pollFraming k) (pollTest c s.nextSample)) := by
  induction k generalizing s with
  | zero =>
    obtain ⟨⟨hcfg, -⟩, -, hev⟩ := nextSample_keeps s
    obtain ⟨hbusy, hnext⟩ := h.nextSample
    have hend := gaveUp_raiseDeviceTimeout (s := s.nextSample.counted) c (nextSample_frameClosed s)
    rw [counted_cfg, hcfg] at hend
    rw [pollTest_timeout c hbusy hnext.limit, Nat.zero_mul, Nat.zero_add]
    exact hend.after hev
  | succ k ih =>
    obtain ⟨⟨hcfg, -⟩, -, hev⟩ := nextSample_keeps s
    obtain ⟨hbusy, hnext⟩ := h.nextSample
    have hmore : s.nextSample.cfg.pollLimit ≠ some (s.nextSample.pollCnt + 1) := by simp [hnext.limit]
    have hend := ih hnext.counted
    have rows := ticks_again c s.nextSample.counted
    rw [counted_cfg, hcfg] at hend rows
    rw [pollRest_succ, ticks_add, pollTest_again c hbusy hmore, hcfg, rows, Nat.succ_mul, Nat.add_comm (k * _), Nat.add_assoc]
    exact hend.after hev

/-- Settles O38: the first pass opens the poll, and `StuckWithin.gaveUp` takes it to the limit. -/
theorem pollLimitGivesUp : Obligations.PollLimitGivesUp := by
  intro s c r n hs hcnt hlimit hmask hd hb hr t
  obtain ⟨⟨hcfg, -, -, -, -, -, hcnt', -⟩, -, hev⟩ := openPoll_keeps s
  obtain ⟨fr, hdev, hfr⟩ := openPoll_dev hd
  have hstuck : StuckWithin n s.openPoll :=
    ⟨by rwa [hcfg], by rw [hcfg, hcnt', hcnt, hlimit, Nat.zero_add], _, hdev, hb, hr, by rwa [hcfg]⟩
  have rows := ticks_poll c s
  rw [goto_self hs, pollOnce_eq] at rows
  have ht : t = ticks (pollRest s.cfg.pollFraming n) (pollTest c s.openPoll.nextSample) := by rw [← rows, ← ticks_add]
  have hend := hstuck.gaveUp c
  rw [hcfg] at hend
  obtain ⟨hidle, hfree, hcs, htimeout, hevents⟩ := hend.after hev
  rw [ht, pollEventCount_succ]
  exact ⟨hidle, hfree, hcs, htimeout, hevents⟩

end Sys2Proof.Machine
end

section
/-! PROOFS. Reset at any time and the idle controller: what a reset leaves of the device, with and without an open frame (R173, R174),
and what a step of an idle controller leaves alone (R172). -/

namespace Sys2Proof.Machine

variable {s : State} {r : Responder} {rest : List HostMove} {op : Byte}

/-! ### The device after a cut -/

@[simp] theorem withAgenda_devAfterReset (rest : List HostMove) (s : State) : (withAgenda rest s).devAfterReset = s.devAfterReset := rfl

theorem devAfterReset_closed (h : s.csN = true) : s.devAfterReset = s.dev := by rw [State.devAfterReset, if_pos h]

theorem devAfterReset_open (h : s.csN = false) : s.devAfterReset = s.dev.cut s.cfg s.freeCtr s.nextOpcode := by
  rw [State.devAfterReset, h, if_neg Bool.false_ne_true]

theorem Device.cut_noFrame (c : Config) (n : Nat) (next : Option Byte) (h : r.frame = none) :
    (Device.responder r).cut c n next = .responder r := by
  simp only [Device.cut, h]

theorem Device.cut_begun (c : Config) (n : Nat) (next : Option Byte) {args : List Byte} (h : r.frame = some (op :: args)) :
    (Device.responder r).cut c n next = r.cutFrame c n op args := by
  simp only [Device.cut, h]

theorem Device.cut_announced (c : Config) (n : Nat) (h : r.frame = some []) :
    (Device.responder r).cut c n (some op) = r.cutFrame c n op [] := by
  simp only [Device.cut, h]

/-- Only a program and an erase frame lose more than the latch where they are cut (log 17). -/
theorem Responder.cutFrame_latch (c : Config) (n : Nat) (args : List Byte) (hpp : op ≠ opPp) (herase : op ≠ opChipErase) :
    r.cutFrame c n op args = .responder (r.cutLatch n) := by
  unfold Responder.cutFrame
  rw [if_neg hpp, if_neg herase]

theorem Responder.cutFrame_chipErase (c : Config) (n : Nat) (args : List Byte) : r.cutFrame c n opChipErase args = .script [] := rfl

/-- A program frame cut after both page bytes leaves its page open (U18). -/
theorem Responder.cutFrame_page {c : Config} (n : Nat) {a2 a1 : Byte} (more : List Byte) (hp : hasPage c (pageOf a2 a1)) :
    r.cutFrame c n opPp (a2 :: a1 :: more) = .responder (r.cutProgram n (pageAddress (pageOf a2 a1)) 256) := by
  have hfit := hasPage_fits hp
  rw [Responder.cutFrame, if_pos rfl]
  exact if_pos (by omega)

/-- A cut program frame leaves the bytes beside its `len` bytes at `base` (R173). -/
theorem Responder.read_cutProgram_outside (hwf : Memory.wf r.mem = true) (n : Nat) {base len a : Nat} (ha : a < base ∨ base + len ≤ a) :
    Memory.read (r.cutProgram n base len).mem a = Memory.read r.mem a :=
  Memory.read_store_outside _ _ _ hwf a (by rwa [freeBytes_length])

/-! ### Reset -/

theorem step_reset (h : s.agenda = .reset :: rest) : step s = .next (resetController (withAgenda rest s)) :=
  step_done (by rw [fetch, h])

/-- The rows that send an opcode which neither programs nor erases (R120 to R125). -/
theorem Row.opcode_latch {row : Row} (h : row = .i1 ∨ row = .e1 ∨ row = .rd1 ∨ row = .w1 ∨ row = .p1) :
    ∃ op, row.opcode = some op ∧ op ≠ opPp ∧ op ≠ opChipErase := by
  obtain rfl | rfl | rfl | rfl | rfl := h <;> exact ⟨_, rfl, by decide, by decide⟩

theorem nextOpcode_at {c : Command} {row : Row} (h : s.seq = .at c row) : s.nextOpcode = row.opcode := by rw [State.nextOpcode, h]

/-- Settles O44: the controller is at its reset values by definition; with a frame open the device is as `Device.cut` leaves it. -/
theorem resetAtAnyTime : Obligations.ResetAtAnyTime := by
  intro s rest ha
  refine ⟨_, step_reset ha, rfl, rfl, rfl, rfl, rfl, rfl, rfl, rfl, rfl, fun hcs => ?_, fun hcs => ?_⟩
  · exact ⟨devAfterReset_closed hcs, by simp [hcs]⟩
  · have hdev : (resetController (withAgenda rest s)).dev = s.dev.cut s.cfg s.freeCtr s.nextOpcode := devAfterReset_open hcs
    refine ⟨by simp [hcs], fun l hl => by rw [hdev, hl, Device.cut], fun r hr => ?_⟩
    rw [hdev, hr]
    refine ⟨Device.cut_noFrame _ _ _, fun op args hf => ?_, fun c row hf hs hrow => ?_⟩
    · rw [Device.cut_begun _ _ _ hf]
      exact ⟨fun ⟨hpp, herase⟩ => ⟨_, Responder.cutFrame_latch _ _ _ hpp herase⟩,
        fun hop => hop ▸ Responder.cutFrame_chipErase _ _ _⟩
    · obtain ⟨op, hop, hpp, herase⟩ := Row.opcode_latch hrow
      rw [nextOpcode_at hs, hop, Device.cut_announced _ _ hf]
      exact ⟨_, Responder.cutFrame_latch _ _ _ hpp herase⟩

/-- Settles O45: the cut stores free bytes over the addressed page alone. -/
theorem cutProgramFrameKeepsOtherPages : Obligations.CutProgramFrameKeepsOtherPages := by
  intro s rest r a2 a1 more t ha hcs hr hf hwf hp ht
  obtain rfl : resetController (withAgenda rest s) = t := Host.Outcome.next.inj ((step_reset ha).symm.trans ht)
  have hdev : (resetController (withAgenda rest s)).dev =
      .responder (r.cutProgram s.freeCtr (pageAddress (pageOf a2 a1)) 256) := by
    rw [resetController_dev, withAgenda_devAfterReset, devAfterReset_open hcs, hr, Device.cut_begun _ _ _ hf,
      Responder.cutFrame_page _ _ hp]
  refine ⟨by rw [State.devInSync, hdev]; rfl, fun a hout => ?_⟩
  rw [peek_responder hdev, peek_responder hr, Responder.read_cutProgram_outside (wf_of_memWf hr hwf) _ hout]
  rfl

/-! ### The idle controller (R172) -/

/-- Settles O46: of the effects a step can have, a row is none while idle, and only a CMD write and the model's moves `call` and
`frame` start anything. -/
theorem idleStaysIdle : Obligations.IdleStaysIdle := by
  refine ⟨fun s t hs hb h hcmd hcall hframe => ?_, fun s hs ha => ?_⟩
  · cases step_effect h with
    | quiet rest v n ht => exact ht ▸ ⟨hs, hb, fun _ => ⟨rfl, rfl⟩⟩
    | row rest ht =>
      rw [tick_idle (s := withAgenda rest s) hs] at ht
      exact ht ▸ ⟨hs, hb, fun _ => ⟨rfl, rfl⟩⟩
    | reset rest ha ht => exact ht ▸ ⟨rfl, rfl, fun hno => absurd ha (hno rest)⟩
    | write num v rest ha hw =>
      cases hw with
      | nothing ht | pageIndex _ ht | txbuf k _ ht => exact ht ▸ ⟨hs, hb, fun _ => ⟨rfl, rfl⟩⟩
      | command c i _ hn _ _ => exact absurd (hn ▸ ha) (hcmd v rest)
    | command c i rest ha _ _ _ => exact absurd ha (hcall c.code rest)
    | frame header i rest ha _ _ _ => exact absurd ha (hframe header rest)
  · rw [step_done (by rw [fetch, ha]), tick_idle hs]

end Sys2Proof.Machine
end

section
/-! PROOFS. A read or program frame of a page beyond the chip, on the ready responder (R68, log 16). -/

namespace Sys2Proof.Machine

variable {s : State} {r : Responder} {p : PageIndex}

/-- A program frame of a page beyond the chip is refused at `Desel`, whatever the write-enable latch (R68, log 16). -/
theorem Responder.closeFrame_pp_beyond {c : Config} (free : Option Nat) (hb : r.busy = false) (hp : ¬ hasPage c p)
    {data : List Byte} (hlen : data.length = 256) :
    r.closeFrame c free opPp (hiByte p :: loByte p :: 0x00 :: data) = Device.unknown := by
  have hout := not_hasPage hp
  have hover : ¬ pageAddress p + data.length ≤ c.capacity := by omega
  have hframe (args : List Byte) : r.closeFrame c free opPp args = r.closeProgram c free args := by
    simp [Responder.closeFrame, hb]
  rw [hframe, Responder.closeProgram, addressOf_toNat, if_neg hover]

/-- A program frame of a page beyond the chip: the responder only listens, and refuses when the frame closes. -/
theorem ppFrame_beyond (h : s.readyResponder r) (hp : ¬ hasPage s.cfg p) : (ppFrame p s).dev = Device.unknown := by
  obtain ⟨hd, hb⟩ := h
  rw [(frameRun_pp p s).1.dev, List.cons_append, frameDev_listens hd _ (by simp [Responder.listens])]
  exact Responder.closeFrame_pp_beyond _ (r := { r with frame := none }) hb hp (by simp [txBytes])

/-- A read frame of a page beyond the chip: the responder refuses at the first data byte, and the rest of the frame runs on a device
of which nothing is known. -/
theorem readFrame_beyond (h : s.readyResponder r) (hp : ¬ hasPage s.cfg p) : (readFrame p s).dev = Device.unknown := by
  obtain ⟨hd, hb⟩ := h
  have hout : s.cfg.capacity ≤ (addressOf (hiByte p) (loByte p) 0x00).toNat := addressOf_toNat p ▸ not_hasPage hp
  rw [(frameRun_read p s).1.dev, State.frameDev, hd, List.replicate_succ, Responder.exchange_beyond _ _ _ _ _ _ _ _ hb hout]
  rfl

/-- Settles O20: a read is refused at its first data byte, a program at `Desel`. -/
theorem beyondTheChipNothingIsKnown : Obligations.BeyondTheChipNothingIsKnown := by
  intro i p s r hi h hp
  obtain rfl | rfl := hi
  · exact ⟨_, exec_read p s, readFrame_beyond h hp⟩
  · exact ⟨_, exec_pp p s, ppFrame_beyond h hp⟩

end Sys2Proof.Machine
end
